-- ==== Sys2Proof/Word.lean ====
section
/-! DEFINITION. The bit vectors the block's ports are made of (10_state.md R22, R23). -/

namespace Sys2Proof

/-- One wire: the width of SIGN, CFG_OK and NUM_VALID. -/
abbrev Bit := BitVec 1

/-- The width of FB, EB, EXPONENT and EFFEXP. -/
abbrev Byte := BitVec 8

/-- The width of RAW and VALUE (00_scope.md R6, `RAWW = 32`). -/
abbrev Word := BitVec 32

end Sys2Proof
end

