-- ==== Sys2Proof/Config.lean ====
section
/-! DEFINITION. What is fixed for the block: the four limits of a layout and the layout of the VALUE port.
The spec leaves no value of any output open (44_decode_pipeline.md R144), so there is no free value here. -/

namespace Sys2Proof.Config

/-- 00_scope.md R5, `FB_MIN`. The four limits are parameters fixed at the spec's values (R7; log 11). -/
abbrev fbMin : Nat := 2

/-- 00_scope.md R5, `FB_MAX`. -/
abbrev fbMax : Nat := 23

/-- 00_scope.md R5, `EB_MIN`. -/
abbrev ebMin : Nat := 3

/-- 00_scope.md R5, `EB_MAX`. -/
abbrev ebMax : Nat := 8

/-- 00_scope.md R6, `RAWW`. -/
abbrev rawWidth : Nat := 32

/-- The fraction width of the layout VALUE is written in (00_scope.md R10, 30_encoding.md R69). -/
abbrev valueFractionBits : Nat := 23

/-- The exponent width of the layout VALUE is written in (00_scope.md R10, 30_encoding.md R69). -/
abbrev valueExponentBits : Nat := 8

end Sys2Proof.Config
end

