-- ==== Sys2Proof/Syntax.lean ====
section
/-! DEFINITION. The block's operations and table rows as data, and the data they carry.
One constructor of Instr for each mnemonic of spec/opcode_table.json (log 1). -/

namespace Sys2Proof

/-- 10_state.md R25: a pair of widths that validation has accepted.
A value of this type exists only with both widths in range, so no later operation is given an illegal one. -/
structure LayoutConfig where
  fractionBits : Nat
  exponentBits : Nat
  fraction_legal : Config.fbMin ≤ fractionBits ∧ fractionBits ≤ Config.fbMax
  exponent_legal : Config.ebMin ≤ exponentBits ∧ exponentBits ≤ Config.ebMax
  deriving DecidableEq, Repr

/-- 10_state.md R27. The ranges belong to a layout, so they are checked where a layout is known
(`DecodedFields.inRange`). -/
structure DecodedFields where
  sign     : Bit
  exponent : Nat
  fraction : Nat
  deriving DecidableEq, Repr

/-- 10_state.md R22, 20_memory.md R44: the triple one evaluation reads as a single sample. -/
structure Stimulus where
  fb  : Byte
  eb  : Byte
  raw : Word
  deriving DecidableEq, Repr

/-- The six operations (00_scope.md R2), the five class rows (30_encoding.md R61) and the four configuration
rows (opcode_table.json, format `config`).
The operands of an operation are those of its contract; the operands of a row are its layout and the fields its
encoding leaves variable. -/
inductive Instr where
  /-- VALIDATE, 40_validate.md R80: the widths are arbitrary integers (R86). -/
  | validate (fb eb : Int)
  /-- EXTRACT, 41_extract.md R90. -/
  | extract (raw : Word) (cfg : LayoutConfig)
  /-- FRACVAL, 42_fractional_value.md R100. -/
  | fracval (fraction fb : Nat)
  /-- CLASSIFY, 43_classify_reconstruct.md R110. -/
  | classify (fields : DecodedFields) (cfg : LayoutConfig)
  /-- RECONSTRUCT, 43_classify_reconstruct.md R116. -/
  | reconstruct (fields : DecodedFields) (cfg : LayoutConfig)
  /-- DECODE, 44_decode_pipeline.md R135. -/
  | decode (fb eb : Int) (raw : Word)
  /-- INFINITY, `s 1..1 0..0`, 43_classify_reconstruct.md R111. -/
  | infinity (cfg : LayoutConfig) (sign : Bit)
  /-- NAN, `s 1..1 f..f`, 43_classify_reconstruct.md R112. -/
  | nan (cfg : LayoutConfig) (sign : Bit) (fraction : Nat)
  /-- ZERO, `s 0..0 0..0`, 43_classify_reconstruct.md R113. -/
  | zero (cfg : LayoutConfig) (sign : Bit)
  /-- SUBNORMAL, `s 0..0 f..f`, 43_classify_reconstruct.md R114. -/
  | subnormal (cfg : LayoutConfig) (sign : Bit) (fraction : Nat)
  /-- NORMAL, `s e..e f..f`, 43_classify_reconstruct.md R115. -/
  | normal (cfg : LayoutConfig) (sign : Bit) (exponent fraction : Nat)
  /-- CFG_LEGAL, 40_validate.md R80. -/
  | cfgLegal (cfg : LayoutConfig)
  /-- CFG_FRACTION_ILLEGAL, 40_validate.md R81. -/
  | cfgFractionIllegal (fb eb : Byte)
  /-- CFG_EXPONENT_ILLEGAL, 40_validate.md R82. -/
  | cfgExponentIllegal (fb eb : Byte)
  /-- CFG_BOTH_ILLEGAL, 40_validate.md R83. -/
  | cfgBothIllegal (fb eb : Byte)
  deriving DecidableEq, Repr

end Sys2Proof
end

