-- ==== Sys2Proof/WellFormed.lean ====
section
/-! DEFINITION. Which operands an operation or a row admits: the domains of the contracts
(93_implementation_defined.md U4, U5) and the selecting condition of each table row. -/

namespace Sys2Proof

/-- 00_scope.md R5. -/
def fractionWidthLegal (n : Nat) : Bool := decide (Config.fbMin ≤ n) && decide (n ≤ Config.fbMax)

/-- 00_scope.md R5. -/
def exponentWidthLegal (n : Nat) : Bool := decide (Config.ebMin ≤ n) && decide (n ≤ Config.ebMax)

/-- 10_state.md R27: the ranges of DecodedFields under a layout. -/
def DecodedFields.inRange (f : DecodedFields) (cfg : LayoutConfig) : Bool :=
  decide (f.exponent < 2 ^ cfg.exponentBits) && decide (f.fraction < 2 ^ cfg.fractionBits)

/-- Whether an instruction's operands lie in the domain its rule gives it. -/
def Instr.wellFormed : Instr → Bool
  | .validate _ _ => true
  | .extract _ _ => true
  | .fracval fraction fb => fractionWidthLegal fb && decide (fraction < 2 ^ fb)
  | .classify fields cfg => fields.inRange cfg
  | .reconstruct fields cfg => fields.inRange cfg
  | .decode _ _ _ => true
  | .infinity _ _ => true
  | .nan cfg _ fraction => decide (0 < fraction) && decide (fraction < 2 ^ cfg.fractionBits)
  | .zero _ _ => true
  | .subnormal cfg _ fraction => decide (0 < fraction) && decide (fraction < 2 ^ cfg.fractionBits)
  | .normal cfg _ exponent fraction =>
      decide (1 ≤ exponent) && decide (exponent ≤ 2 ^ cfg.exponentBits - 2) &&
        decide (fraction < 2 ^ cfg.fractionBits)
  | .cfgLegal _ => true
  | .cfgFractionIllegal fb eb => !fractionWidthLegal fb.toNat && exponentWidthLegal eb.toNat
  | .cfgExponentIllegal fb eb => fractionWidthLegal fb.toNat && !exponentWidthLegal eb.toNat
  | .cfgBothIllegal fb eb => !fractionWidthLegal fb.toNat && !exponentWidthLegal eb.toNat

end Sys2Proof
end

