-- ==== Sys2Proof/Decode.lean ====
section
/-! DEFINITION. The two decode tables, by configuration (FB, EB) and by class (RAW under a layout), and the encoder
written from the same tables (30_encoding.md R55, R58, R61 to R63, R70, R76). -/

namespace Sys2Proof

/-- 40_validate.md R84. -/
def LayoutConfig.totalBits (cfg : LayoutConfig) : Nat := cfg.fractionBits + cfg.exponentBits + 1

/-- 40_validate.md R84. -/
def LayoutConfig.bias (cfg : LayoutConfig) : Nat := 2 ^ (cfg.exponentBits - 1) - 1

/-- The all-ones stored exponent (30_encoding.md R61). -/
def LayoutConfig.allOnes (cfg : LayoutConfig) : Nat := 2 ^ cfg.exponentBits - 1

/-- `FRAC_MASK`, 30_encoding.md R58. -/
def LayoutConfig.fracMask (cfg : LayoutConfig) : Word := BitVec.ofNat 32 (2 ^ cfg.fractionBits - 1)

/-- `EXP_MASK`, 30_encoding.md R58. -/
def LayoutConfig.expMask (cfg : LayoutConfig) : Word :=
  BitVec.ofNat 32 ((2 ^ cfg.exponentBits - 1) * 2 ^ cfg.fractionBits)

/-- `SIGN_MASK`, 30_encoding.md R58. -/
def LayoutConfig.signMask (cfg : LayoutConfig) : Word :=
  BitVec.ofNat 32 (2 ^ (cfg.fractionBits + cfg.exponentBits))

/-- `PATTERN_MASK`, 30_encoding.md R58. -/
def LayoutConfig.patternMask (cfg : LayoutConfig) : Word := BitVec.ofNat 32 (2 ^ cfg.totalBits - 1)

/-- The sign field of a pattern by its mask, 30_encoding.md R58. -/
def LayoutConfig.maskedSign (cfg : LayoutConfig) (raw : Word) : Bit :=
  ((raw &&& cfg.signMask) >>> (cfg.fractionBits + cfg.exponentBits)).setWidth 1

/-- The exponent field of a pattern by its mask, 30_encoding.md R58. -/
def LayoutConfig.maskedExponent (cfg : LayoutConfig) (raw : Word) : Nat :=
  ((raw &&& cfg.expMask) >>> cfg.fractionBits).toNat

/-- The fraction field of a pattern by its mask, 30_encoding.md R58. -/
def LayoutConfig.maskedFraction (cfg : LayoutConfig) (raw : Word) : Nat := (raw &&& cfg.fracMask).toNat

/-- The layout a pair of widths gives, where both are legal. -/
def LayoutConfig.ofWidths (fb eb : Nat) : Option LayoutConfig :=
  if hf : Config.fbMin ≤ fb ∧ fb ≤ Config.fbMax then
    if he : Config.ebMin ≤ eb ∧ eb ≤ Config.ebMax then some ⟨fb, eb, hf, he⟩ else none
  else none

/-- The configuration rows of opcode_table.json: exactly one fits each (FB, EB) (30_encoding.md R70). -/
def decodeConfig (fb eb : Byte) : Instr :=
  match LayoutConfig.ofWidths fb.toNat eb.toNat with
  | some cfg => .cfgLegal cfg
  | none =>
    if exponentWidthLegal eb.toNat then .cfgFractionIllegal fb eb
    else if fractionWidthLegal fb.toNat then .cfgExponentIllegal fb eb
    else .cfgBothIllegal fb eb

/-- 30_encoding.md R63: the five class rows as match and mask pairs on RAW, tested in priority order. -/
def decodeClass (cfg : LayoutConfig) (raw : Word) : Instr :=
  if raw &&& (cfg.expMask ||| cfg.fracMask) = cfg.expMask then
    .infinity cfg (cfg.maskedSign raw)
  else if raw &&& cfg.expMask = cfg.expMask then
    .nan cfg (cfg.maskedSign raw) (cfg.maskedFraction raw)
  else if raw &&& (cfg.expMask ||| cfg.fracMask) = 0#32 then
    .zero cfg (cfg.maskedSign raw)
  else if raw &&& cfg.expMask = 0#32 then
    .subnormal cfg (cfg.maskedSign raw) (cfg.maskedFraction raw)
  else
    .normal cfg (cfg.maskedSign raw) (cfg.maskedExponent raw) (cfg.maskedFraction raw)

/-- The row an input triple selects: a class row under a legal layout, else an illegal-configuration row.
Total: every one of the 2^48 triples selects exactly one (30_encoding.md R62, R70). -/
def decodeStimulus (st : Stimulus) : Instr :=
  match LayoutConfig.ofWidths st.fb.toNat st.eb.toNat with
  | some cfg => decodeClass cfg st.raw
  | none => decodeConfig st.fb st.eb

/-- 41_extract.md R95: the pattern with the given fields. -/
def LayoutConfig.assemble (cfg : LayoutConfig) (sign : Bit) (exponent fraction : Nat) : Word :=
  BitVec.ofNat 32 (sign.toNat <<< (cfg.fractionBits + cfg.exponentBits)) |||
    BitVec.ofNat 32 (exponent <<< cfg.fractionBits) ||| BitVec.ofNat 32 fraction

/-- The triple that presents a pattern under a layout. -/
def LayoutConfig.stimulus (cfg : LayoutConfig) (raw : Word) : Stimulus :=
  { fb := BitVec.ofNat 8 cfg.fractionBits, eb := BitVec.ofNat 8 cfg.exponentBits, raw := raw }

/-- The triple a row stands for, the ignored bits 0 (log 14).
The six operations carry the empty encoding (30_encoding.md R65), and CFG_LEGAL alone fixes no pattern. -/
def Instr.triple : Instr → Option Stimulus
  | .validate _ _ => none
  | .extract _ _ => none
  | .fracval _ _ => none
  | .classify _ _ => none
  | .reconstruct _ _ => none
  | .decode _ _ _ => none
  | .infinity cfg s => some (cfg.stimulus (cfg.assemble s cfg.allOnes 0))
  | .nan cfg s f => some (cfg.stimulus (cfg.assemble s cfg.allOnes f))
  | .zero cfg s => some (cfg.stimulus (cfg.assemble s 0 0))
  | .subnormal cfg s f => some (cfg.stimulus (cfg.assemble s 0 f))
  | .normal cfg s e f => some (cfg.stimulus (cfg.assemble s e f))
  | .cfgLegal _ => none
  | .cfgFractionIllegal fb eb => some { fb := fb, eb := eb, raw := 0#32 }
  | .cfgExponentIllegal fb eb => some { fb := fb, eb := eb, raw := 0#32 }
  | .cfgBothIllegal fb eb => some { fb := fb, eb := eb, raw := 0#32 }

/-- The input triple of a well-formed row. -/
def encode (i : Instr) : Option Stimulus := if i.wellFormed then i.triple else none

/-- The (FB, EB) pair of a well-formed configuration row. -/
def encodeConfig (i : Instr) : Option (Byte × Byte) :=
  if i.wellFormed then
    match i with
    | .cfgLegal cfg => some (BitVec.ofNat 8 cfg.fractionBits, BitVec.ofNat 8 cfg.exponentBits)
    | .cfgFractionIllegal fb eb => some (fb, eb)
    | .cfgExponentIllegal fb eb => some (fb, eb)
    | .cfgBothIllegal fb eb => some (fb, eb)
    | .validate _ _ | .extract _ _ | .fracval _ _ | .classify _ _ | .reconstruct _ _ | .decode _ _ _
    | .infinity _ _ | .nan _ _ _ | .zero _ _ | .subnormal _ _ _ | .normal _ _ _ _ => none
  else none

/-- 30_encoding.md R76: the 48-bit stimulus word `FB : EB : RAW`, FB most significant. -/
def Stimulus.toStim (st : Stimulus) : BitVec 48 := st.fb ++ st.eb ++ st.raw

/-- 30_encoding.md R76, read back. -/
def Stimulus.ofStim (w : BitVec 48) : Stimulus :=
  { fb := w.extractLsb' 40 8, eb := w.extractLsb' 32 8, raw := w.extractLsb' 0 32 }

/-- The triple a word of opcode_table.json stands for (log 5): 8 bits are a pattern of the rows `class/fb4_eb3`,
32 bits one of the rows `class/fb23_eb8`, and 48 bits the stimulus word of R76.
The table has words of no other length. -/
def tableStimulus (nbits w : Nat) : Option Stimulus :=
  if nbits = 8 then some { fb := 4#8, eb := 3#8, raw := BitVec.ofNat 32 (w % 2 ^ 8) }
  else if nbits = 32 then some { fb := 23#8, eb := 8#8, raw := BitVec.ofNat 32 w }
  else if nbits = 48 then some (Stimulus.ofStim (BitVec.ofNat 48 w))
  else none

/-- The row the decoder reads from a word of opcode_table.json. -/
def decodeTableWord (nbits w : Nat) : Option Instr := (tableStimulus nbits w).map decodeStimulus

end Sys2Proof
end

