-- ==== Sys2Proof/Machine/State.lean ====
section
/-! DEFINITION. The machine's state: the block's ports, in the spec's three output groups
(44_decode_pipeline.md R137), and the triples the caller has still to present.
The block itself stores nothing (10_state.md R20), so there is no register, memory, mode or program counter here. -/

namespace Sys2Proof.Machine

/-- VALIDATE's output ports (10_state.md R23). -/
structure ConfigPorts where
  /-- CFG_OK -/
  cfgOk     : Bit
  /-- ERR[1:0] -/
  err       : BitVec 2
  /-- TOTAL_BITS[5:0] -/
  totalBits : BitVec 6
  /-- BIAS[6:0] -/
  bias      : BitVec 7
  deriving DecidableEq, Repr

/-- EXTRACT's output ports (10_state.md R23). -/
structure FieldPorts where
  /-- SIGN -/
  sign     : Bit
  /-- EXPONENT[7:0] -/
  exponent : Byte
  /-- FRACTION[22:0] -/
  fraction : BitVec 23
  deriving DecidableEq, Repr

/-- CLASSIFY's output port CLASS, and RECONSTRUCT's four (10_state.md R23; log 20). -/
structure DecodedPorts where
  /-- CLASS[2:0] -/
  cls      : BitVec 3
  /-- NUM_VALID -/
  numValid : Bit
  /-- EFFEXP[7:0] -/
  effExp   : Byte
  /-- MANT[23:0] -/
  mant     : BitVec 24
  /-- VALUE[31:0] -/
  value    : Word
  deriving DecidableEq, Repr

/-- What EXTRACT's ports hold when CFG_OK = 0 (44_decode_pipeline.md R138). -/
def FieldPorts.none : FieldPorts := { sign := 0#1, exponent := 0#8, fraction := 0#23 }

/-- What CLASSIFY's and RECONSTRUCT's ports hold when CFG_OK = 0 (44_decode_pipeline.md R138). -/
def DecodedPorts.none : DecodedPorts :=
  { cls := 0#3, numValid := 0#1, effExp := 0#8, mant := 0#24, value := 0#32 }

/-- The twelve output ports (10_state.md R23). -/
structure Outputs where
  config  : ConfigPorts
  fields  : FieldPorts
  decoded : DecodedPorts
  deriving DecidableEq, Repr

/-- The fifteen ports, and the caller's list of triples (log 2). -/
structure State where
  /-- FB, EB and RAW, as the caller holds them (10_state.md R22). -/
  input   : Stimulus
  /-- CFG_OK, ERR, TOTAL_BITS, BIAS. -/
  config  : ConfigPorts
  /-- SIGN, EXPONENT, FRACTION. -/
  fields  : FieldPorts
  /-- CLASS, NUM_VALID, EFFEXP, MANT, VALUE. -/
  decoded : DecodedPorts
  /-- The triples the caller presents next, first first.
  The model's own: the spec's caller chooses each triple freely (10_state.md R39). -/
  pending : List Stimulus
  deriving DecidableEq, Repr

/-- All twelve output ports of a state. -/
def State.outputs (s : State) : Outputs :=
  { config := s.config, fields := s.fields, decoded := s.decoded }

/-- The machine has no fault: nothing traps, hangs or is undefined for any input triple
(00_scope.md R18, 60_exceptions.md R152; log 15).
A ConfigError is a value on CFG_OK and ERR, not a fault. -/
inductive Fault where
  deriving DecidableEq, Repr

/-- Why an operation or row applied to operands outside its domain has no result.
No evaluation of the block meets one of these. -/
inductive Refusal where
  /-- Raised by exec's arm of an instruction without a meaning.
  Safe. No arm raises it. -/
  | notModelled (mnemonic : String)
  /-- Raised by CLASSIFY and RECONSTRUCT given fields outside the layout's ranges, which U4 of
  93_implementation_defined.md treats as `refuse` (43_classify_reconstruct.md R128).
  Safe. -/
  | fieldsOutsideLayout
  /-- Raised by FRACVAL given a fraction or width outside its domain, which U5 of
  93_implementation_defined.md treats as `refuse` (42_fractional_value.md R104).
  Safe. -/
  | fractionOutsideDomain
  /-- Raised by a class or configuration row given operands that the row's own condition does not select
  (30_encoding.md R61, R70; log 10).
  Safe. -/
  | rowNotSelected
  deriving DecidableEq, Repr

/-- The machine before the caller has presented anything: FB = EB = RAW = 0 and nothing pending (log 3), with the
outputs the block shows for that triple, CFG_OK = 0, ERR = 3 and every other output 0
(70_reset_and_hazards.md R166). -/
def State.reset : State :=
  { input   := { fb := 0#8, eb := 0#8, raw := 0#32 }
    config  := { cfgOk := 0#1, err := 3#2, totalBits := 0#6, bias := 0#7 }
    fields  := FieldPorts.none
    decoded := DecodedPorts.none
    pending := [] }

end Sys2Proof.Machine
end

