-- ==== Sys2Proof/Machine/Operands.lean ====
section
/-! DEFINITION. The values an evaluation passes from unit to unit: field extraction, classification, effective
exponent, significand, and the VALUE pattern (files 41 to 43 of spec/). -/

namespace Sys2Proof.Machine

/-- 10_state.md R28. -/
inductive Classification where
  | zero
  | subnormal
  | normal
  | infinity
  | nan
  deriving DecidableEq, Repr

/-- 41_extract.md R90 to R93, on mathematical integers (00_scope.md R12). -/
def extractFields (raw : Word) (cfg : LayoutConfig) : DecodedFields :=
  { sign     := BitVec.ofNat 1 ((raw.toNat >>> (cfg.fractionBits + cfg.exponentBits)) &&& 1)
    exponent := (raw.toNat >>> cfg.fractionBits) &&& ((1 <<< cfg.exponentBits) - 1)
    fraction := raw.toNat &&& ((1 <<< cfg.fractionBits) - 1) }

/-- 43_classify_reconstruct.md R110, on fields within the layout's ranges. -/
def classOf (fields : DecodedFields) (cfg : LayoutConfig) : Classification :=
  if fields.exponent = cfg.allOnes then
    if fields.fraction = 0 then .infinity else .nan
  else if fields.exponent = 0 then
    if fields.fraction = 0 then .zero else .subnormal
  else .normal

/-- 43_classify_reconstruct.md R117: absent exactly for Infinity and NaN. -/
def effectiveExponent (cls : Classification) (exponent : Nat) (cfg : LayoutConfig) : Option Int :=
  match cls with
  | .zero | .subnormal => some (1 - (cfg.bias : Int))
  | .normal => some ((exponent : Int) - (cfg.bias : Int))
  | .infinity | .nan => none

/-- 42_fractional_value.md R103: the fraction left-aligned below the binary point, the pattern of MANT[22:0]. -/
def alignedFraction (fraction fb : Nat) : BitVec 23 := BitVec.ofNat 23 (fraction <<< (23 - fb))

/-- MANT[23:0], 43_classify_reconstruct.md R123. -/
def mantPattern (cls : Classification) (fraction : Nat) (cfg : LayoutConfig) : BitVec 24 :=
  match cls with
  | .zero | .subnormal => 0#1 ++ alignedFraction fraction cfg.fractionBits
  | .normal => 1#1 ++ alignedFraction fraction cfg.fractionBits
  | .infinity | .nan => 0#24

/-- EFFEXP[7:0]: the effective exponent mod 256, 0 where it is absent (43_classify_reconstruct.md R123). -/
def effExpPattern (e : Option Int) : Byte :=
  match e with
  | some e => BitVec.ofInt 8 e
  | none => 0#8

/-- `s : E : F`, a pattern of the layout (23, 8) (30_encoding.md R56, R69). -/
def packValue (sign : Bit) (exponent : Byte) (fraction : BitVec 23) : Word := sign ++ exponent ++ fraction

/-- `msb(v)` of 00_scope.md R14, for v > 0. -/
def msb (v : Nat) : Nat := Nat.log2 v

/-- VALUE of a Subnormal, 43_classify_reconstruct.md R124: kept subnormal when EB = 8, else normalised at the
highest set bit of the 24-bit mantissa. -/
def subnormalValue (sign : Bit) (e : Int) (mant : BitVec 24) (cfg : LayoutConfig) : Word :=
  if cfg.exponentBits = Config.valueExponentBits then packValue sign 0#8 (mant.setWidth 23)
  else
    let p := msb mant.toNat
    packValue sign (BitVec.ofInt 8 (e - (23 - (p : Int)) + 127)) (BitVec.ofNat 23 (mant.toNat <<< (23 - p)))

/-- VALUE32, 43_classify_reconstruct.md R124. -/
def valuePattern (cls : Classification) (sign : Bit) (e : Option Int) (mant : BitVec 24) (cfg : LayoutConfig) :
    Word :=
  match cls with
  | .infinity => packValue sign 0xFF#8 0#23
  | .nan => packValue 0#1 0xFF#8 0x400000#23
  | .zero => packValue sign 0#8 0#23
  | .normal => packValue sign (BitVec.ofInt 8 (e.getD 0 + 127)) (mant.setWidth 23)
  | .subnormal => subnormalValue sign (e.getD 0) mant cfg

end Sys2Proof.Machine
end

