-- ==== Sys2Proof/Machine/Flags.lean ====
section
/-! DEFINITION. The status outputs: the two error conditions, CFG_OK and ERR, and the codes of CLASS and NUM_VALID
(30_encoding.md R66, R67; 40_validate.md R87; 43_classify_reconstruct.md R123). -/

namespace Sys2Proof.Machine

/-- 40_validate.md R81. -/
def errFrac (fb : Int) : Bool := decide (fb < (Config.fbMin : Int)) || decide ((Config.fbMax : Int) < fb)

/-- 40_validate.md R82. -/
def errExp (eb : Int) : Bool := decide (eb < (Config.ebMin : Int)) || decide ((Config.ebMax : Int) < eb)

/-- ERR[1:0]: bit 0 FractionOutOfRange, bit 1 ExponentOutOfRange (30_encoding.md R67). -/
def errCode (frac exp : Bool) : BitVec 2 := BitVec.ofBool exp ++ BitVec.ofBool frac

/-- CFG_OK, 40_validate.md R87. -/
def cfgOkBit (frac exp : Bool) : Bit := BitVec.ofBool (!(frac || exp))

/-- CLASS[2:0], 30_encoding.md R66; 0 is NONE and stands for no class. -/
def classCode : Classification → BitVec 3
  | .zero => 1#3
  | .subnormal => 2#3
  | .normal => 3#3
  | .infinity => 4#3
  | .nan => 5#3

/-- NUM_VALID, 43_classify_reconstruct.md R123. -/
def numValidBit : Classification → Bit
  | .zero | .subnormal | .normal => 1#1
  | .infinity | .nan => 0#1

end Sys2Proof.Machine
end

