-- ==== Sys2Proof/Machine/Ops.lean ====
section
/-! DEFINITION. The named operations on the ports: presenting a triple, driving each output group, and delivering a
configuration error.
Every group but VALIDATE's own is qualified by CFG_OK: with CFG_OK = 0 it shows zeros
(40_validate.md R87, 41_extract.md R96, 43_classify_reconstruct.md R123, 44_decode_pipeline.md R138). -/

namespace Sys2Proof.Machine

/-- The caller puts the next pending triple on FB, EB and RAW; with none pending it goes on holding the present
one (log 4). -/
def State.present (s : State) : State :=
  match s.pending with
  | [] => s
  | st :: rest => { s with input := st, pending := rest }

/-- VALIDATE's ports for an accepted layout (40_validate.md R87). -/
def State.driveLayout (s : State) (cfg : LayoutConfig) : State :=
  { s with config :=
      { cfgOk := 1#1, err := 0#2, totalBits := BitVec.ofNat 6 cfg.totalBits, bias := BitVec.ofNat 7 cfg.bias } }

/-- Delivery of a configuration error (60_exceptions.md R152, R153): no state is saved and control goes nowhere;
CFG_OK = 0, ERR shows the error and every data output is forced to 0, whatever RAW is
(44_decode_pipeline.md R138; log 8). -/
def State.deliverError (s : State) (frac exp : Bool) : State :=
  { s with
    config  := { cfgOk := cfgOkBit frac exp, err := errCode frac exp, totalBits := 0#6, bias := 0#7 }
    fields  := FieldPorts.none
    decoded := DecodedPorts.none }

/-- Whether CFG_OK qualifies the data outputs (40_validate.md R87). -/
def State.configOk (s : State) : Bool := s.config.cfgOk == 1#1

/-- EXTRACT's ports, zero-extended (41_extract.md R96). -/
def State.driveFields (s : State) (f : DecodedFields) : State :=
  { s with fields :=
      if s.configOk then
        { sign := f.sign, exponent := BitVec.ofNat 8 f.exponent, fraction := BitVec.ofNat 23 f.fraction }
      else FieldPorts.none }

/-- CLASS alone (43_classify_reconstruct.md R110, R123): NUM_VALID is RECONSTRUCT's (10_state.md R23, R34; log 20). -/
def State.driveClass (s : State) (cls : Classification) : State :=
  { s with decoded := { s.decoded with cls := if s.configOk then classCode cls else 0#3 } }

/-- MANT[22:0], MANT[23] kept (42_fractional_value.md R103; log 17). -/
def State.driveFractionalValue (s : State) (v : BitVec 23) : State :=
  { s with decoded :=
      { s.decoded with
        mant := s.decoded.mant.extractLsb' 23 1 ++ (if s.configOk then v else 0#23) } }

/-- The whole group CLASS, NUM_VALID, EFFEXP, MANT, VALUE (43_classify_reconstruct.md R123). -/
def State.driveDecoded (s : State) (p : DecodedPorts) : State :=
  { s with decoded := if s.configOk then p else DecodedPorts.none }

/-- One operation after another within an evaluation (20_memory.md R47). -/
def andThen (o : Host.Outcome State Fault Refusal) (k : State → Host.Outcome State Fault Refusal) :
    Host.Outcome State Fault Refusal :=
  match o with
  | .next s => k s
  | .fault r => .fault r
  | .refused r => .refused r

end Sys2Proof.Machine
end

