-- ==== Sys2Proof/Machine/Extract.lean ====
section
/-! DEFINITION. EXTRACT (41_extract.md). -/

namespace Sys2Proof.Machine

/-- EXTRACT, 41_extract.md R90, R96; no error (R94). -/
def execExtract (raw : Word) (cfg : LayoutConfig) (s : State) : Host.Outcome State Fault Refusal :=
  .next (s.driveFields (extractFields raw cfg))

end Sys2Proof.Machine
end

