-- ==== Sys2Proof/Machine/Fracval.lean ====
section
/-! DEFINITION. FRACVAL (42_fractional_value.md), over the exact rationals (00_scope.md R13; log 18). -/

namespace Sys2Proof.Machine

/-- The weight of fraction bit i, 30_encoding.md R60. -/
def bitWeight (fb i : Nat) : ℚ := (2 : ℚ) ^ (-((fb : ℤ) - (i : ℤ)))

/-- FRACVAL in the function view, 42_fractional_value.md R100: the sum of the weights of the set bits. -/
def fractionalValue (fraction fb : Nat) : ℚ :=
  ((List.range fb).map fun i => if fraction.testBit i then bitWeight fb i else 0).sum

/-- The domain of FRACVAL, 42_fractional_value.md R104. -/
def fracvalDomain (fraction fb : Nat) : Bool := fractionWidthLegal fb && decide (fraction < 2 ^ fb)

/-- FRACVAL as a function of its own: no result outside its domain (42_fractional_value.md R104). -/
def fracval (fraction fb : Nat) : Option ℚ :=
  if fracvalDomain fraction fb then some (fractionalValue fraction fb) else none

/-- FRACVAL, 42_fractional_value.md R103: its result shows on MANT[22:0]. -/
def execFracval (fraction fb : Nat) (s : State) : Host.Outcome State Fault Refusal :=
  if fracvalDomain fraction fb then .next (s.driveFractionalValue (alignedFraction fraction fb))
  else .refused .fractionOutsideDomain

end Sys2Proof.Machine
end

