-- ==== Sys2Proof/Machine/Reconstruct.lean ====
section
/-! DEFINITION. CLASSIFY, RECONSTRUCT and the five class rows (43_classify_reconstruct.md). -/

namespace Sys2Proof.Machine

/-- 10_state.md R30, with structural identity: +0 and -0 are two values, NaN is one (log 18). -/
inductive NumericValue where
  | finite (sign : Bit) (magnitude : ℚ)
  | infinite (sign : Bit)
  | nan
  deriving DecidableEq, Repr

/-- 10_state.md R29. -/
structure DecodedValue where
  classification     : Classification
  sign               : Bit
  effectiveExponent  : Option Int
  mantissaMultiplier : Option ℚ
  numericValue       : NumericValue
  deriving DecidableEq, Repr

/-- The result of the three finite classes, 43_classify_reconstruct.md R116, R119. -/
def finiteValue (cls : Classification) (sign : Bit) (e : Int) (m : ℚ) : DecodedValue :=
  { classification := cls, sign := sign, effectiveExponent := some e, mantissaMultiplier := some m
    numericValue := .finite sign (m * (2 : ℚ) ^ e) }

/-- RECONSTRUCT in the function view on fields within the layout's ranges, 43_classify_reconstruct.md R116. -/
def decodedValue (fields : DecodedFields) (cfg : LayoutConfig) : DecodedValue :=
  let s := fields.sign
  let fv := fractionalValue fields.fraction cfg.fractionBits
  match classOf fields cfg with
  | .infinity =>
      { classification := .infinity, sign := s, effectiveExponent := none, mantissaMultiplier := none
        numericValue := .infinite s }
  | .nan =>
      { classification := .nan, sign := s, effectiveExponent := none, mantissaMultiplier := none
        numericValue := .nan }
  | .zero => finiteValue .zero s (1 - (cfg.bias : Int)) fv
  | .subnormal => finiteValue .subnormal s (1 - (cfg.bias : Int)) fv
  | .normal => finiteValue .normal s ((fields.exponent : Int) - (cfg.bias : Int)) (1 + fv)

/-- CLASSIFY as a function of its own: no result outside its domain (93_implementation_defined.md U4). -/
def classify (fields : DecodedFields) (cfg : LayoutConfig) : Option Classification :=
  if fields.inRange cfg then some (classOf fields cfg) else none

/-- RECONSTRUCT as a function of its own: no result outside its domain (93_implementation_defined.md U4). -/
def reconstruct (fields : DecodedFields) (cfg : LayoutConfig) : Option DecodedValue :=
  if fields.inRange cfg then some (decodedValue fields cfg) else none

/-- What RECONSTRUCT drives when CFG_OK = 1, 43_classify_reconstruct.md R123, R124. -/
def decodedPorts (fields : DecodedFields) (cfg : LayoutConfig) : DecodedPorts :=
  let cls := classOf fields cfg
  let e := effectiveExponent cls fields.exponent cfg
  let m := mantPattern cls fields.fraction cfg
  { cls := classCode cls, numValid := numValidBit cls, effExp := effExpPattern e, mant := m
    value := valuePattern cls fields.sign e m cfg }

/-- CLASSIFY, 43_classify_reconstruct.md R110: CLASS is the one port it writes (log 20). -/
def execClassify (fields : DecodedFields) (cfg : LayoutConfig) (s : State) : Host.Outcome State Fault Refusal :=
  if fields.inRange cfg then .next (s.driveClass (classOf fields cfg)) else .refused .fieldsOutsideLayout

/-- RECONSTRUCT, 43_classify_reconstruct.md R116, R123, R124. -/
def execReconstruct (fields : DecodedFields) (cfg : LayoutConfig) (s : State) :
    Host.Outcome State Fault Refusal :=
  if fields.inRange cfg then .next (s.driveDecoded (decodedPorts fields cfg))
  else .refused .fieldsOutsideLayout

/-- INFINITY, 43_classify_reconstruct.md R111: the same on every layout. -/
def execInfinity (_cfg : LayoutConfig) (sign : Bit) (s : State) : Host.Outcome State Fault Refusal :=
  .next (s.driveDecoded
    { cls := 4#3, numValid := 0#1, effExp := 0#8, mant := 0#24, value := sign ++ 0xFF#8 ++ 0#23 })

/-- NAN, 43_classify_reconstruct.md R112: VALUE depends on neither the sign nor the fraction. -/
def execNan (cfg : LayoutConfig) (_sign : Bit) (fraction : Nat) (s : State) : Host.Outcome State Fault Refusal :=
  if 0 < fraction ∧ fraction < 2 ^ cfg.fractionBits then
    .next (s.driveDecoded
      { cls := 5#3, numValid := 0#1, effExp := 0#8, mant := 0#24, value := 0x7FC00000#32 })
  else .refused .rowNotSelected

/-- ZERO, 43_classify_reconstruct.md R113: the sign of zero is kept. -/
def execZero (cfg : LayoutConfig) (sign : Bit) (s : State) : Host.Outcome State Fault Refusal :=
  .next (s.driveDecoded
    { cls := 1#3, numValid := 1#1, effExp := BitVec.ofInt 8 (1 - (cfg.bias : Int)), mant := 0#24
      value := sign ++ 0#31 })

/-- SUBNORMAL, 43_classify_reconstruct.md R114. -/
def execSubnormal (cfg : LayoutConfig) (sign : Bit) (fraction : Nat) (s : State) :
    Host.Outcome State Fault Refusal :=
  if 0 < fraction ∧ fraction < 2 ^ cfg.fractionBits then
    let mant : BitVec 24 := 0#1 ++ alignedFraction fraction cfg.fractionBits
    .next (s.driveDecoded
      { cls := 2#3, numValid := 1#1, effExp := BitVec.ofInt 8 (1 - (cfg.bias : Int)), mant := mant
        value := subnormalValue sign (1 - (cfg.bias : Int)) mant cfg })
  else .refused .rowNotSelected

/-- NORMAL, 43_classify_reconstruct.md R115. -/
def execNormal (cfg : LayoutConfig) (sign : Bit) (exponent fraction : Nat) (s : State) :
    Host.Outcome State Fault Refusal :=
  if (1 ≤ exponent ∧ exponent ≤ 2 ^ cfg.exponentBits - 2) ∧ fraction < 2 ^ cfg.fractionBits then
    .next (s.driveDecoded
      { cls := 3#3, numValid := 1#1, effExp := BitVec.ofInt 8 ((exponent : Int) - (cfg.bias : Int))
        mant := 1#1 ++ alignedFraction fraction cfg.fractionBits
        value := sign ++ BitVec.ofInt 8 ((exponent : Int) - (cfg.bias : Int) + 127) ++
          alignedFraction fraction cfg.fractionBits })
  else .refused .rowNotSelected

end Sys2Proof.Machine
end

