-- ==== Sys2Proof/Machine/Validate.lean ====
section
/-! DEFINITION. VALIDATE and the four configuration rows (40_validate.md). -/

namespace Sys2Proof.Machine

/-- 10_state.md R31. -/
inductive ConfigError where
  | fractionOutOfRange
  | exponentOutOfRange
  deriving DecidableEq, Repr

theorem fraction_legal_of_not_errFrac {fb : Int} (h : ¬ errFrac fb = true) :
    Config.fbMin ≤ fb.toNat ∧ fb.toNat ≤ Config.fbMax := by
  simp only [errFrac, Bool.or_eq_true, decide_eq_true_eq, not_or, not_lt] at h
  simp only [Config.fbMin, Config.fbMax] at h ⊢
  omega

theorem exponent_legal_of_not_errExp {eb : Int} (h : ¬ errExp eb = true) :
    Config.ebMin ≤ eb.toNat ∧ eb.toNat ≤ Config.ebMax := by
  simp only [errExp, Bool.or_eq_true, decide_eq_true_eq, not_or, not_lt] at h
  simp only [Config.ebMin, Config.ebMax] at h ⊢
  omega

/-- VALIDATE in the function view, 40_validate.md R80; the fraction is checked first (R83; log 12). -/
def validate (fb eb : Int) : Except ConfigError LayoutConfig :=
  if hf : errFrac fb = true then .error .fractionOutOfRange
  else if he : errExp eb = true then .error .exponentOutOfRange
  else .ok ⟨fb.toNat, eb.toNat, fraction_legal_of_not_errFrac hf, exponent_legal_of_not_errExp he⟩

/-- VALIDATE, 40_validate.md R87; on failure the other outputs are forced to 0 (44_decode_pipeline.md R138). -/
def execValidate (fb eb : Int) (s : State) : Host.Outcome State Fault Refusal :=
  match validate fb eb with
  | .ok cfg => .next (s.driveLayout cfg)
  | .error _ => .next (s.deliverError (errFrac fb) (errExp eb))

/-- CFG_LEGAL: CFG_OK = 1, ERR = 0 and the derived parameters (40_validate.md R84, R87). -/
def execCfgLegal (cfg : LayoutConfig) (s : State) : Host.Outcome State Fault Refusal :=
  .next (s.driveLayout cfg)

/-- CFG_FRACTION_ILLEGAL: ERR = 1 (40_validate.md R81, 44_decode_pipeline.md R138). -/
def execCfgFractionIllegal (fb eb : Byte) (s : State) : Host.Outcome State Fault Refusal :=
  if !fractionWidthLegal fb.toNat && exponentWidthLegal eb.toNat then .next (s.deliverError true false)
  else .refused .rowNotSelected

/-- CFG_EXPONENT_ILLEGAL: ERR = 2 (40_validate.md R82, 44_decode_pipeline.md R138). -/
def execCfgExponentIllegal (fb eb : Byte) (s : State) : Host.Outcome State Fault Refusal :=
  if fractionWidthLegal fb.toNat && !exponentWidthLegal eb.toNat then .next (s.deliverError false true)
  else .refused .rowNotSelected

/-- CFG_BOTH_ILLEGAL: ERR = 3 (40_validate.md R83, 44_decode_pipeline.md R138). -/
def execCfgBothIllegal (fb eb : Byte) (s : State) : Host.Outcome State Fault Refusal :=
  if !fractionWidthLegal fb.toNat && !exponentWidthLegal eb.toNat then .next (s.deliverError true true)
  else .refused .rowNotSelected

end Sys2Proof.Machine
end

