-- ==== Sys2Proof/Machine/Pipeline.lean ====
section
/-! DEFINITION. DECODE, the whole block as a pipeline of its units (44_decode_pipeline.md). -/

namespace Sys2Proof.Machine

/-- The three results of a successful DECODE, 44_decode_pipeline.md R137. -/
structure DecodeResult where
  cfg    : LayoutConfig
  fields : DecodedFields
  value  : DecodedValue
  deriving DecidableEq, Repr

/-- DECODE in the function view, 44_decode_pipeline.md R135, R136. -/
def decodeTriple (fb eb : Int) (raw : Word) : Except ConfigError DecodeResult :=
  match validate fb eb with
  | .error e => .error e
  | .ok cfg =>
    let fields := extractFields raw cfg
    .ok { cfg := cfg, fields := fields, value := decodedValue fields cfg }

/-- DECODE, 44_decode_pipeline.md R135, R138: all twelve outputs. -/
def execDecode (fb eb : Int) (raw : Word) (s : State) : Host.Outcome State Fault Refusal :=
  match validate fb eb with
  | .error _ => .next (s.deliverError (errFrac fb) (errExp eb))
  | .ok cfg =>
    let fields := extractFields raw cfg
    .next (((s.driveLayout cfg).driveFields fields).driveDecoded (decodedPorts fields cfg))

end Sys2Proof.Machine
end

