-- ==== Sys2Proof/Machine/Dispatch.lean ====
section
/-! DEFINITION. One arm for each constructor of Instr. -/

namespace Sys2Proof.Machine

def exec (i : Instr) (s : State) : Host.Outcome State Fault Refusal :=
  match i with
  | .validate fb eb => Sys2Proof.Machine.execValidate fb eb s
  | .extract raw cfg => Sys2Proof.Machine.execExtract raw cfg s
  | .fracval fraction fb => Sys2Proof.Machine.execFracval fraction fb s
  | .classify fields cfg => Sys2Proof.Machine.execClassify fields cfg s
  | .reconstruct fields cfg => Sys2Proof.Machine.execReconstruct fields cfg s
  | .decode fb eb raw => Sys2Proof.Machine.execDecode fb eb raw s
  | .infinity cfg sign => Sys2Proof.Machine.execInfinity cfg sign s
  | .nan cfg sign fraction => Sys2Proof.Machine.execNan cfg sign fraction s
  | .zero cfg sign => Sys2Proof.Machine.execZero cfg sign s
  | .subnormal cfg sign fraction => Sys2Proof.Machine.execSubnormal cfg sign fraction s
  | .normal cfg sign exponent fraction => Sys2Proof.Machine.execNormal cfg sign exponent fraction s
  | .cfgLegal cfg => Sys2Proof.Machine.execCfgLegal cfg s
  | .cfgFractionIllegal fb eb => Sys2Proof.Machine.execCfgFractionIllegal fb eb s
  | .cfgExponentIllegal fb eb => Sys2Proof.Machine.execCfgExponentIllegal fb eb s
  | .cfgBothIllegal fb eb => Sys2Proof.Machine.execCfgBothIllegal fb eb s

end Sys2Proof.Machine
end

