-- ==== Sys2Proof/Machine/Evaluation.lean ====
section
/-! DEFINITION. One evaluation of the triple on the input ports, by the decode tables (20_memory.md R47). -/

namespace Sys2Proof.Machine

/-- One evaluation, 44_decode_pipeline.md R140: under a legal layout the configuration row CFG_LEGAL, then EXTRACT,
then the class row that RAW selects; otherwise the illegal-configuration row that (FB, EB) selects, and nothing
after it (R136). -/
def State.evaluate (s : State) : Host.Outcome State Fault Refusal :=
  match LayoutConfig.ofWidths s.input.fb.toNat s.input.eb.toNat with
  | some cfg =>
    andThen (exec (.cfgLegal cfg) s) fun s1 =>
      andThen (exec (.extract s.input.raw cfg) s1) fun s2 => exec (decodeStimulus s.input) s2
  | none => exec (decodeStimulus s.input) s

end Sys2Proof.Machine
end

