-- ==== Sys2Proof/Machine/Step.lean ====
section
/-! DEFINITION. One step of the machine, and how a table word is put where the next step takes it. -/

namespace Sys2Proof.Machine

/-- One step: the caller presents a triple and the block evaluates it (00_scope.md R17, 44_decode_pipeline.md R140). -/
def step (s : State) : Host.Outcome State Fault Refusal := s.present.evaluate

/-- The triple of a table word becomes the next one the caller presents (log 5); a word of a length the table does
not have changes nothing. -/
def State.withFetchWord (s : State) (nbits w : Nat) : State :=
  match tableStimulus nbits w with
  | some st => { s with pending := st :: s.pending }
  | none => s

end Sys2Proof.Machine
end

