-- ==== Sys2Proof/Machine/PortView.lean ====
section
/-! DEFINITION. The complete output function of the block, written as the slices and selections of its ports
(44_decode_pipeline.md R139), for claims to compare the machine with. -/

namespace Sys2Proof.Machine

/-- CLASS, 43_classify_reconstruct.md R123. -/
def portClass (eb : Nat) (exponent : Byte) (fraction : BitVec 23) : BitVec 3 :=
  let ones := (1 <<< eb) - 1
  if exponent.toNat = ones ∧ fraction = 0#23 then 4#3
  else if exponent.toNat = ones ∧ fraction ≠ 0#23 then 5#3
  else if exponent = 0#8 ∧ fraction = 0#23 then 1#3
  else if exponent = 0#8 ∧ fraction ≠ 0#23 then 2#3
  else 3#3

/-- EFFEXP, 43_classify_reconstruct.md R123. -/
def portEffExp (cls : BitVec 3) (bias : BitVec 7) (exponent : Byte) : Byte :=
  if cls = 1#3 ∨ cls = 2#3 then 1#8 - bias.setWidth 8
  else if cls = 3#3 then exponent - bias.setWidth 8
  else 0#8

/-- MANT, 43_classify_reconstruct.md R123. -/
def portMant (cls : BitVec 3) (fb : Nat) (fraction : BitVec 23) : BitVec 24 :=
  if cls = 1#3 ∨ cls = 2#3 then 0#1 ++ (fraction <<< (23 - fb))
  else if cls = 3#3 then 1#1 ++ (fraction <<< (23 - fb))
  else 0#24

/-- VALUE, 43_classify_reconstruct.md R124, from the other ports. -/
def portValue (cls : BitVec 3) (eb : Nat) (sign : Bit) (effExp : Byte) (mant : BitVec 24) : Word :=
  if cls = 4#3 then sign ++ 0b11111111#8 ++ 0#23
  else if cls = 5#3 then 0#1 ++ 0b11111111#8 ++ 0b10000000000000000000000#23
  else if cls = 1#3 then sign ++ 0#8 ++ 0#23
  else if cls = 3#3 then sign ++ (effExp + 127#8) ++ mant.extractLsb' 0 23
  else if eb = 8 then sign ++ 0#8 ++ mant.extractLsb' 0 23
  else
    let p := Nat.log2 mant.toNat
    sign ++ (effExp - BitVec.ofNat 8 (23 - p) + 127#8) ++ (mant <<< (23 - p)).extractLsb' 0 23

/-- Both widths are in range (00_scope.md R5). -/
def legalWidths (st : Stimulus) : Bool := fractionWidthLegal st.fb.toNat && exponentWidthLegal st.eb.toNat

/-- 44_decode_pipeline.md R139: the outputs for one input triple. -/
def portFunction (st : Stimulus) : Outputs :=
  let fb := st.fb.toNat
  let eb := st.eb.toNat
  if legalWidths st then
    let bias : BitVec 7 := BitVec.ofNat 7 ((1 <<< (eb - 1)) - 1)
    let sign : Bit := st.raw.extractLsb' (fb + eb) 1
    let exponent : Byte := (st.raw.extractLsb' fb eb).setWidth 8
    let fraction : BitVec 23 := (st.raw.extractLsb' 0 fb).setWidth 23
    let cls := portClass eb exponent fraction
    let effExp := portEffExp cls bias exponent
    let mant := portMant cls fb fraction
    { config := { cfgOk := 1#1, err := 0#2, totalBits := BitVec.ofNat 6 (fb + eb + 1), bias := bias }
      fields := { sign := sign, exponent := exponent, fraction := fraction }
      decoded :=
        { cls := cls, numValid := if cls = 1#3 ∨ cls = 2#3 ∨ cls = 3#3 then 1#1 else 0#1, effExp := effExp
          mant := mant, value := portValue cls eb sign effExp mant } }
  else
    { config :=
        { cfgOk := 0#1
          err := BitVec.ofBool (!exponentWidthLegal eb) ++ BitVec.ofBool (!fractionWidthLegal fb)
          totalBits := 0#6, bias := 0#7 }
      fields := { sign := 0#1, exponent := 0#8, fraction := 0#23 }
      decoded := { cls := 0#3, numValid := 0#1, effExp := 0#8, mant := 0#24, value := 0#32 } }

end Sys2Proof.Machine
end

