-- ==== Sys2Proof/Safety.lean ====
section
/-! DEFINITION. What claims speak of: the layout VALUE is written in, the output codes the block never produces, the
error state, outputs that agree with the inputs, and the bound a caller should check. -/

namespace Sys2Proof.Machine

/-- The layout (23, 8) of the VALUE port (00_scope.md R10, 30_encoding.md R69). -/
def valueLayout : LayoutConfig :=
  ⟨Config.valueFractionBits, Config.valueExponentBits, by decide, by decide⟩

/-- The number a pattern stands for under a layout (41_extract.md R90, 43_classify_reconstruct.md R116). -/
def numberOf (raw : Word) (cfg : LayoutConfig) : NumericValue := (decodedValue (extractFields raw cfg) cfg).numericValue

/-- 30_encoding.md R73: no output code that is never produced. -/
def Outputs.codesLegal (o : Outputs) : Prop :=
  (o.decoded.cls ≠ 6#3 ∧ o.decoded.cls ≠ 7#3) ∧ (o.config.cfgOk = 1#1 ↔ o.config.err = 0#2) ∧
    (o.decoded.numValid = 1#1 → o.decoded.cls ≠ 0#3 ∧ o.decoded.cls ≠ 4#3 ∧ o.decoded.cls ≠ 5#3) ∧
    (o.decoded.mant.extractLsb' 23 1 = 1#1 → o.decoded.cls = 3#3)

/-- 44_decode_pipeline.md R138: CFG_OK = 1 exactly when ERR = 0, and with CFG_OK = 0 every data output is 0. -/
def State.qualified (s : State) : Prop :=
  (s.config.cfgOk = 1#1 ↔ s.config.err = 0#2) ∧
    (s.config.cfgOk = 0#1 →
      s.config.totalBits = 0#6 ∧ s.config.bias = 0#7 ∧ s.fields = FieldPorts.none ∧ s.decoded = DecodedPorts.none)

/-- 10_state.md R20, 44_decode_pipeline.md R139: every output is the function of the triple on the input ports. -/
def State.consistent (s : State) : Prop := s.outputs = portFunction s.input

/-- The machine goes on. -/
def Answers (o : Host.Outcome State Fault Refusal) : Prop := ∃ t, o = .next t

/-- The caller's TooManyBits condition with the bound the spec recommends, 2^total_bits (60_exceptions.md R149).
The block never tests it. -/
def tooManyBits (raw : Word) (cfg : LayoutConfig) : Prop := 2 ^ cfg.totalBits ≤ raw.toNat

end Sys2Proof.Machine
end

