-- ==== Sys2Proof/Certificates/Slice0/Obligations.lean ====
section
/-! DEFINITION. The statements for the provers. Most come from one numbered rule of spec/, which the docstring names. -/

open Sys2Proof Sys2Proof.Machine

/-! ## Reset and the caller -/

/-- The reset state is the evaluation of the triple (0, 0, 0): the model's choice of inputs (log 3) with the outputs
that 70_reset_and_hazards.md R166 gives for FB = EB = 0. -/
def Obligations.ResetIsTheEvaluationOfTheZeroTriple : Prop :=
  State.reset.consistent ∧ State.reset.qualified ∧ State.reset.outputs.codesLegal ∧
    State.reset.config = { cfgOk := 0#1, err := 3#2, totalBits := 0#6, bias := 0#7 } ∧
    State.reset.fields = { sign := 0#1, exponent := 0#8, fraction := 0#23 } ∧
    State.reset.decoded = { cls := 0#3, numValid := 0#1, effExp := 0#8, mant := 0#24, value := 0#32 }

/-- 70_reset_and_hazards.md R166: with FB = EB = 0 held, the block shows CFG_OK = 0, ERR = 3 and zeros. -/
def Obligations.ZeroWidthsShowBothErrorsAndZeros : Prop :=
  ∀ (s : State) (raw : Word) (rest : List Stimulus),
    step { s with pending := { fb := 0#8, eb := 0#8, raw := raw } :: rest } =
      .next
        { input := { fb := 0#8, eb := 0#8, raw := raw }
          config := { cfgOk := 0#1, err := 3#2, totalBits := 0#6, bias := 0#7 }
          fields := { sign := 0#1, exponent := 0#8, fraction := 0#23 }
          decoded := { cls := 0#3, numValid := 0#1, effExp := 0#8, mant := 0#24, value := 0#32 }
          pending := rest }

/-- The caller's triples are taken in order, and with none left the inputs are held: the model's choice
(log 2, log 4). -/
def Obligations.StepTakesTheNextPendingTriple : Prop :=
  (∀ (s : State) (st : Stimulus) (rest : List Stimulus), s.pending = st :: rest →
      ∃ t, step s = .next t ∧ t.input = st ∧ t.pending = rest) ∧
    ∀ s : State, s.pending = [] → ∃ t, step s = .next t ∧ t.input = s.input ∧ t.pending = []

/-! ## VALIDATE and the configuration rows -/

/-- 40_validate.md R84: the layout, its total_bits and bias, and the ports that show them, on success.
Nothing else changes. -/
def Obligations.ValidateAcceptsLegalWidths : Prop :=
  ∀ (fb eb : Int) (s : State), 2 ≤ fb → fb ≤ 23 → 3 ≤ eb → eb ≤ 8 →
    (∃ cfg, validate fb eb = .ok cfg ∧ (cfg.fractionBits : Int) = fb ∧ (cfg.exponentBits : Int) = eb ∧
        (cfg.totalBits : Int) = fb + eb + 1 ∧ (cfg.bias : Int) = 2 ^ (eb - 1).toNat - 1 ∧
        6 ≤ cfg.totalBits ∧ cfg.totalBits ≤ 32 ∧ 3 ≤ cfg.bias ∧ cfg.bias ≤ 127) ∧
      exec (.validate fb eb) s =
        .next { s with config :=
          { cfgOk := 1#1, err := 0#2, totalBits := BitVec.ofInt 6 (fb + eb + 1)
            bias := BitVec.ofInt 7 (2 ^ (eb - 1).toNat - 1) } }

/-- 40_validate.md R81, R82: which error VALIDATE returns, and both bits of ERR, for every pair of integers that is
not legal, negative ones included. That FractionOutOfRange is the one returned when both widths are illegal is a
choice, R83's decision D6, which the model takes (log 12, unsafe for a claim about the reference program). -/
def Obligations.ValidateReportsIllegalWidths : Prop :=
  ∀ (fb eb : Int) (s : State), ((fb < 2 ∨ 23 < fb) ∨ (eb < 3 ∨ 8 < eb)) →
    validate fb eb = .error (if fb < 2 ∨ 23 < fb then .fractionOutOfRange else .exponentOutOfRange) ∧
      ∃ t, exec (.validate fb eb) s = .next t ∧ t.config.cfgOk = 0#1 ∧
        (t.config.err.getLsbD 0 = true ↔ fb < 2 ∨ 23 < fb) ∧
        (t.config.err.getLsbD 1 = true ↔ eb < 3 ∨ 8 < eb)

/-- 40_validate.md R87: VALIDATE's four ports from FB and EB. -/
def Obligations.ValidateDrivesItsPorts : Prop :=
  ∀ (fb eb : Byte) (s : State), ∃ t, exec (.validate fb.toNat eb.toNat) s = .next t ∧
    (t.config.err.getLsbD 0 = true ↔ fb.toNat < 2 ∨ 23 < fb.toNat) ∧
    (t.config.err.getLsbD 1 = true ↔ eb.toNat < 3 ∨ 8 < eb.toNat) ∧
    (t.config.cfgOk = 1#1 ↔ t.config.err = 0#2) ∧
    (t.config.totalBits.toNat = if t.config.cfgOk = 1#1 then fb.toNat + eb.toNat + 1 else 0) ∧
    (t.config.bias.toNat = if t.config.cfgOk = 1#1 then (1 <<< (eb.toNat - 1)) - 1 else 0)

/-- 44_decode_pipeline.md R138, the half about CFG_OK = 0: after a failed VALIDATE or DECODE every data output is 0,
whatever RAW is; the inputs and the caller's list stay. -/
def Obligations.FailedValidationForcesZeros : Prop :=
  ∀ (fb eb : Int) (raw : Word) (s : State) (e : ConfigError), validate fb eb = .error e →
    ∃ err : BitVec 2, err ≠ 0#2 ∧
      exec (.validate fb eb) s =
        .next
          { s with
            config := { cfgOk := 0#1, err := err, totalBits := 0#6, bias := 0#7 }
            fields := { sign := 0#1, exponent := 0#8, fraction := 0#23 }
            decoded := { cls := 0#3, numValid := 0#1, effExp := 0#8, mant := 0#24, value := 0#32 } } ∧
      exec (.decode fb eb raw) s = exec (.validate fb eb) s

/-- 30_encoding.md R67: the ERR code, CFG_OK and the function view's single error determine one another. When both
widths are illegal, that the single error is FractionOutOfRange is a choice, R83's decision D6, which the model takes
(log 12, unsafe for a claim about the reference program). -/
def Obligations.ErrorCodeMatchesTheReturnedError : Prop :=
  ∀ (fb eb : Int) (s : State), ∃ t, exec (.validate fb eb) s = .next t ∧
    (t.config.err = 0#2 ↔ t.config.cfgOk = 1#1) ∧
    (t.config.err = 0#2 ↔ ∃ cfg, validate fb eb = .ok cfg) ∧
    (t.config.err.getLsbD 0 = true ↔ validate fb eb = .error .fractionOutOfRange) ∧
    (t.config.err = 2#2 ↔ validate fb eb = .error .exponentOutOfRange)

/-- The four configuration rows drive what opcode_table.json gives them (40_validate.md R81 to R84, R87;
44_decode_pipeline.md R138). -/
def Obligations.ConfigurationRowsDriveTheirOutputs : Prop :=
  (∀ (cfg : LayoutConfig) (s : State),
      exec (.cfgLegal cfg) s =
        .next { s with config :=
          { cfgOk := 1#1, err := 0#2
            totalBits := BitVec.ofNat 6 (cfg.fractionBits + cfg.exponentBits + 1)
            bias := BitVec.ofNat 7 (2 ^ (cfg.exponentBits - 1) - 1) } }) ∧
    ∀ (fb eb : Byte) (s : State) (i : Instr) (err : BitVec 2),
      (i = .cfgFractionIllegal fb eb ∧ err = 1#2 ∨ i = .cfgExponentIllegal fb eb ∧ err = 2#2 ∨
          i = .cfgBothIllegal fb eb ∧ err = 3#2) →
        i.wellFormed = true →
          exec i s =
            .next
              { s with
                config := { cfgOk := 0#1, err := err, totalBits := 0#6, bias := 0#7 }
                fields := { sign := 0#1, exponent := 0#8, fraction := 0#23 }
                decoded := { cls := 0#3, numValid := 0#1, effExp := 0#8, mant := 0#24, value := 0#32 } }

/-- On the ports VALIDATE does exactly what the configuration row that (FB, EB) selects does
(40_validate.md R80, 30_encoding.md R70). -/
def Obligations.ValidateIsTheSelectedConfigurationRow : Prop :=
  ∀ (fb eb : Byte) (s : State),
    (decodeConfig fb eb).wellFormed = true ∧
      exec (.validate fb.toNat eb.toNat) s = exec (decodeConfig fb eb) s

/-! ## EXTRACT -/

/-- 41_extract.md R91, R92, R93: the three fields as quotients and remainders of raw, their ranges, and
the ranges of the shift amounts and of the fraction mask. -/
def Obligations.ExtractedFieldsAreTheBitFields : Prop :=
  ∀ (raw : Word) (cfg : LayoutConfig),
    (extractFields raw cfg).fraction = raw.toNat % 2 ^ cfg.fractionBits ∧
      (extractFields raw cfg).exponent = raw.toNat / 2 ^ cfg.fractionBits % 2 ^ cfg.exponentBits ∧
      (extractFields raw cfg).sign.toNat = raw.toNat / 2 ^ (cfg.fractionBits + cfg.exponentBits) % 2 ∧
      (extractFields raw cfg).fraction < 2 ^ cfg.fractionBits ∧
      (extractFields raw cfg).exponent < 2 ^ cfg.exponentBits ∧
      (2 ≤ cfg.fractionBits ∧ cfg.fractionBits ≤ 23 ∧ 2 ^ cfg.fractionBits - 1 ≤ 2 ^ 23 - 1) ∧
      5 ≤ cfg.fractionBits + cfg.exponentBits ∧ cfg.fractionBits + cfg.exponentBits ≤ 31

/-- 41_extract.md R96: EXTRACT's ports are slices of RAW, zero-extended; zeros when CFG_OK = 0.
Nothing else changes. -/
def Obligations.ExtractDrivesSlicesOfRaw : Prop :=
  ∀ (raw : Word) (cfg : LayoutConfig) (s : State),
    exec (.extract raw cfg) s =
      .next { s with fields :=
        if s.config.cfgOk = 1#1 then
          { sign := raw.extractLsb' (cfg.fractionBits + cfg.exponentBits) 1
            exponent := (raw.extractLsb' cfg.fractionBits cfg.exponentBits).setWidth 8
            fraction := (raw.extractLsb' 0 cfg.fractionBits).setWidth 23 }
        else { sign := 0#1, exponent := 0#8, fraction := 0#23 } }

/-- 41_extract.md R95: reassembling the fields gives raw masked to total_bits, with `|` or with `+`, and every
triple of fields in range is the extraction of exactly one pattern below 2^total_bits. The last clause, the bijection,
is the spec's own inference (R95: "derived: from rule R91, rule R92 and rule R93"). -/
def Obligations.ReassemblyRecoversThePattern : Prop :=
  ∀ cfg : LayoutConfig,
    (∀ raw : Word,
        ((extractFields raw cfg).sign.toNat <<< (cfg.fractionBits + cfg.exponentBits)) |||
              ((extractFields raw cfg).exponent <<< cfg.fractionBits) ||| (extractFields raw cfg).fraction =
            raw.toNat &&& ((1 <<< cfg.totalBits) - 1) ∧
          ((extractFields raw cfg).sign.toNat <<< (cfg.fractionBits + cfg.exponentBits)) +
              ((extractFields raw cfg).exponent <<< cfg.fractionBits) + (extractFields raw cfg).fraction =
            raw.toNat &&& ((1 <<< cfg.totalBits) - 1)) ∧
      ∀ f : DecodedFields, f.inRange cfg = true →
        ∃! raw : Word, raw.toNat < 2 ^ cfg.totalBits ∧ extractFields raw cfg = f

/-- 30_encoding.md R58: the masks take out the same fields, and PATTERN_MASK is the union of the three. That the fields
are the same integers is the spec's own inference (R58: "derived: from rule R91, rule R92 and rule R93"). -/
def Obligations.MasksTakeOutTheSameFields : Prop :=
  ∀ (raw : Word) (cfg : LayoutConfig),
    cfg.fracMask.toNat = (1 <<< cfg.fractionBits) - 1 ∧
      cfg.expMask.toNat = ((1 <<< cfg.exponentBits) - 1) <<< cfg.fractionBits ∧
      cfg.signMask.toNat = 1 <<< (cfg.fractionBits + cfg.exponentBits) ∧
      cfg.patternMask.toNat = (1 <<< cfg.totalBits) - 1 ∧
      cfg.maskedSign raw = (extractFields raw cfg).sign ∧
      cfg.maskedExponent raw = (extractFields raw cfg).exponent ∧
      cfg.maskedFraction raw = (extractFields raw cfg).fraction ∧
      cfg.patternMask = cfg.fracMask ||| cfg.expMask ||| cfg.signMask

/-- 41_extract.md R94, 20_memory.md R43: bits of RAW at and above total_bits reach no output. -/
def Obligations.HighBitsOfRawAreIgnored : Prop :=
  ∀ (cfg : LayoutConfig) (raw raw' : Word) (s : State) (rest : List Stimulus),
    raw &&& cfg.patternMask = raw' &&& cfg.patternMask →
      extractFields raw cfg = extractFields (raw &&& cfg.patternMask) cfg ∧
        ∃ t t', step { s with pending := cfg.stimulus raw :: rest } = .next t ∧
          step { s with pending := cfg.stimulus raw' :: rest } = .next t' ∧ t.outputs = t'.outputs

/-- 60_exceptions.md R149: the caller's bound says that a bit of RAW above the pattern is set, and cannot fail for a
32-bit layout. -/
def Obligations.CallerBoundIsTheExcessBits : Prop :=
  ∀ (raw : Word) (cfg : LayoutConfig),
    (tooManyBits raw cfg ↔ raw >>> cfg.totalBits ≠ 0#32) ∧ (cfg.totalBits = 32 → ¬ tooManyBits raw cfg) ∧
      (¬ tooManyBits raw cfg ↔ raw &&& cfg.patternMask = raw)

/-! ## FRACVAL -/

/-- 42_fractional_value.md R101: the weighted sum is fraction / 2^fb, exactly: the spec's own inference ("derived: from
rule R100"). -/
def Obligations.FractionalValueIsAQuotient : Prop :=
  ∀ (fraction fb : Nat), 2 ≤ fb → fb ≤ 23 → fraction < 2 ^ fb →
    fracval fraction fb = some ((fraction : ℚ) / 2 ^ fb)

/-- 42_fractional_value.md R102: range and monotonicity. -/
def Obligations.FractionalValueRangeAndOrder : Prop :=
  ∀ fb : Nat, 2 ≤ fb → fb ≤ 23 →
    fracval 0 fb = some 0 ∧
      fracval (2 ^ fb - 1) fb = some (1 - (2 : ℚ) ^ (-(fb : ℤ))) ∧
      (∀ a b : Nat, a < b → b < 2 ^ fb →
        ∃ x y, fracval a fb = some x ∧ fracval b fb = some y ∧ 0 ≤ x ∧ x < y ∧ y < 1) ∧
      ∀ a : Nat, a + 1 < 2 ^ fb →
        ∃ x, fracval a fb = some x ∧ fracval (a + 1) fb = some (x + (2 : ℚ) ^ (-(fb : ℤ)))

/-- 42_fractional_value.md R103: FRACVAL shows on MANT[22:0], which read as a fixed-point number is its value.
MANT[23] and every other port keep their values (the model's choice, log 17), and with CFG_OK = 0 the arm run alone
shows 0 (DEDUCED, log 7, from 44_decode_pipeline.md R138). -/
def Obligations.FracvalShowsOnMant : Prop :=
  ∀ (fraction fb : Nat) (s : State), 2 ≤ fb → fb ≤ 23 → fraction < 2 ^ fb →
    ∃ v : BitVec 23, v.toNat = fraction * 2 ^ (23 - fb) ∧
      fracval fraction fb = some ((v.toNat : ℚ) / 2 ^ 23) ∧
      exec (.fracval fraction fb) s =
        .next { s with decoded := { s.decoded with
          mant := s.decoded.mant.extractLsb' 23 1 ++ (if s.config.cfgOk = 1#1 then v else 0#23) } }

/-- 42_fractional_value.md R104: FRACVAL has no result outside 0 ≤ fraction < 2^fb and 2 ≤ fb ≤ 23. -/
def Obligations.FracvalRefusesOutsideItsDomain : Prop :=
  ∀ (fraction fb : Nat) (s : State), (fb < 2 ∨ 23 < fb ∨ 2 ^ fb ≤ fraction) →
    fracval fraction fb = none ∧ exec (.fracval fraction fb) s = .refused .fractionOutsideDomain

/-! ## CLASSIFY and RECONSTRUCT -/

/-- 43_classify_reconstruct.md R110: the class of every field triple in range, and CLASS, the only port CLASSIFY
writes, with its code (R123: 0 when CFG_OK = 0). Nothing else changes. That NUM_VALID is kept is DEDUCED from
10_state.md R23, R34 and R110 (log 20, unsafe for this claim): the output list of the CLASSIFY row of
opcode_table.json names NUM_VALID too. -/
def Obligations.ClassifyDrivesTheClass : Prop :=
  ∀ (f : DecodedFields) (cfg : LayoutConfig) (s : State), f.inRange cfg = true →
    ∃ (c : Classification) (code : BitVec 3), classify f cfg = some c ∧
      (f.exponent = 2 ^ cfg.exponentBits - 1 → f.fraction = 0 → c = .infinity) ∧
      (f.exponent = 2 ^ cfg.exponentBits - 1 → f.fraction ≠ 0 → c = .nan) ∧
      (f.exponent = 0 → f.fraction = 0 → c = .zero) ∧
      (f.exponent = 0 → f.fraction ≠ 0 → c = .subnormal) ∧
      (f.exponent ≠ 0 → f.exponent ≠ 2 ^ cfg.exponentBits - 1 → c = .normal) ∧
      (c = .zero ∧ code = 1#3 ∨ c = .subnormal ∧ code = 2#3 ∨ c = .normal ∧ code = 3#3 ∨
        c = .infinity ∧ code = 4#3 ∨ c = .nan ∧ code = 5#3) ∧
      exec (.classify f cfg) s =
        .next { s with decoded := { s.decoded with cls := if s.config.cfgOk = 1#1 then code else 0#3 } }

/-- 30_encoding.md R63, R61: the first row whose match and mask fit RAW is the class of the extracted fields, with
those fields as its operands. -/
def Obligations.FirstMatchingRowIsTheClass : Prop :=
  ∀ (cfg : LayoutConfig) (raw : Word),
    decodeClass cfg raw =
      match classOf (extractFields raw cfg) cfg with
      | .infinity => .infinity cfg (extractFields raw cfg).sign
      | .nan => .nan cfg (extractFields raw cfg).sign (extractFields raw cfg).fraction
      | .zero => .zero cfg (extractFields raw cfg).sign
      | .subnormal => .subnormal cfg (extractFields raw cfg).sign (extractFields raw cfg).fraction
      | .normal =>
          .normal cfg (extractFields raw cfg).sign (extractFields raw cfg).exponent (extractFields raw cfg).fraction

/-- 30_encoding.md R64: how many patterns of each class a layout has: the spec's own inference ("derived: from
rule R61"). -/
def Obligations.PatternCountsOfTheClasses : Prop :=
  ∀ cfg : LayoutConfig,
    let count := fun c : Classification =>
      ((Finset.range (2 ^ cfg.totalBits)).filter fun n =>
        classOf (extractFields (BitVec.ofNat 32 n) cfg) cfg = c).card
    count .zero = 2 ∧ count .subnormal = 2 * (2 ^ cfg.fractionBits - 1) ∧
      count .normal = 2 * (2 ^ cfg.exponentBits - 2) * 2 ^ cfg.fractionBits ∧ count .infinity = 2 ∧
      count .nan = 2 * (2 ^ cfg.fractionBits - 1) ∧
      count .zero + count .subnormal + count .normal + count .infinity + count .nan =
        2 ^ (cfg.fractionBits + cfg.exponentBits + 1)

/-- 43_classify_reconstruct.md R111: INFINITY in both views; the RECONSTRUCT group is 0 when CFG_OK = 0 (R123). -/
def Obligations.InfinityRow : Prop :=
  ∀ (cfg : LayoutConfig) (sign : Bit) (s : State),
    reconstruct { sign := sign, exponent := 2 ^ cfg.exponentBits - 1, fraction := 0 } cfg =
        some { classification := .infinity, sign := sign, effectiveExponent := none, mantissaMultiplier := none
               numericValue := .infinite sign } ∧
      exec (.infinity cfg sign) s =
        .next { s with decoded :=
          if s.config.cfgOk = 1#1 then
            { cls := 4#3, numValid := 0#1, effExp := 0#8, mant := 0#24
              value := if sign = 0#1 then 0x7F800000#32 else 0xFF800000#32 }
          else { cls := 0#3, numValid := 0#1, effExp := 0#8, mant := 0#24, value := 0#32 } }

/-- 43_classify_reconstruct.md R112: NAN in both views, the same VALUE for every sign and fraction. -/
def Obligations.NanRow : Prop :=
  ∀ (cfg : LayoutConfig) (sign : Bit) (fraction : Nat) (s : State), 0 < fraction → fraction < 2 ^ cfg.fractionBits →
    reconstruct { sign := sign, exponent := 2 ^ cfg.exponentBits - 1, fraction := fraction } cfg =
        some { classification := .nan, sign := sign, effectiveExponent := none, mantissaMultiplier := none
               numericValue := .nan } ∧
      exec (.nan cfg sign fraction) s =
        .next { s with decoded :=
          if s.config.cfgOk = 1#1 then
            { cls := 5#3, numValid := 0#1, effExp := 0#8, mant := 0#24, value := 0x7FC00000#32 }
          else { cls := 0#3, numValid := 0#1, effExp := 0#8, mant := 0#24, value := 0#32 } }

/-- 43_classify_reconstruct.md R113: ZERO in both views, the sign of zero kept. -/
def Obligations.ZeroRow : Prop :=
  ∀ (cfg : LayoutConfig) (sign : Bit) (s : State),
    reconstruct { sign := sign, exponent := 0, fraction := 0 } cfg =
        some { classification := .zero, sign := sign, effectiveExponent := some (1 - (cfg.bias : Int))
               mantissaMultiplier := some 0, numericValue := .finite sign 0 } ∧
      exec (.zero cfg sign) s =
        .next { s with decoded :=
          if s.config.cfgOk = 1#1 then
            { cls := 1#3, numValid := 1#1, effExp := BitVec.ofInt 8 (1 - (cfg.bias : Int)), mant := 0#24
              value := if sign = 0#1 then 0x00000000#32 else 0x80000000#32 }
          else { cls := 0#3, numValid := 0#1, effExp := 0#8, mant := 0#24, value := 0#32 } }

/-- 43_classify_reconstruct.md R114, with VALUE by the two Subnormal lines of R124: fraction M when EB = 8, else
normalised at the highest set bit p of M. -/
def Obligations.SubnormalRow : Prop :=
  ∀ (cfg : LayoutConfig) (sign : Bit) (fraction : Nat) (s : State), 0 < fraction → fraction < 2 ^ cfg.fractionBits →
    reconstruct { sign := sign, exponent := 0, fraction := fraction } cfg =
        some { classification := .subnormal, sign := sign, effectiveExponent := some (1 - (cfg.bias : Int))
               mantissaMultiplier := some ((fraction : ℚ) / 2 ^ cfg.fractionBits)
               numericValue := .finite sign
                 ((fraction : ℚ) * (2 : ℚ) ^ (1 - (cfg.bias : ℤ) - (cfg.fractionBits : ℤ))) } ∧
      ∃ (mant : BitVec 24) (value : Word),
        mant.toNat = fraction * 2 ^ (23 - cfg.fractionBits) ∧
        (cfg.exponentBits = 8 → value.toNat = sign.toNat * 2 ^ 31 + mant.toNat) ∧
        (cfg.exponentBits < 8 →
          ∃ p : Nat, 23 - cfg.fractionBits ≤ p ∧ p ≤ 22 ∧ 2 ^ p ≤ mant.toNat ∧ mant.toNat < 2 ^ (p + 1) ∧
            (value.toNat : Int) =
              sign.toNat * 2 ^ 31 + (1 - (cfg.bias : Int) - (23 - (p : Int)) + 127) * 2 ^ 23 +
                ((mant.toNat : Int) * 2 ^ (23 - p) - 2 ^ 23)) ∧
        exec (.subnormal cfg sign fraction) s =
          .next { s with decoded :=
            if s.config.cfgOk = 1#1 then
              { cls := 2#3, numValid := 1#1, effExp := BitVec.ofInt 8 (1 - (cfg.bias : Int)), mant := mant
                value := value }
            else { cls := 0#3, numValid := 0#1, effExp := 0#8, mant := 0#24, value := 0#32 } }

/-- 43_classify_reconstruct.md R115, with VALUE by the Normal line of R124. -/
def Obligations.NormalRow : Prop :=
  ∀ (cfg : LayoutConfig) (sign : Bit) (exponent fraction : Nat) (s : State),
    1 ≤ exponent → exponent ≤ 2 ^ cfg.exponentBits - 2 → fraction < 2 ^ cfg.fractionBits →
      reconstruct { sign := sign, exponent := exponent, fraction := fraction } cfg =
          some { classification := .normal, sign := sign
                 effectiveExponent := some ((exponent : Int) - (cfg.bias : Int))
                 mantissaMultiplier := some (1 + (fraction : ℚ) / 2 ^ cfg.fractionBits)
                 numericValue := .finite sign
                   ((1 + (fraction : ℚ) / 2 ^ cfg.fractionBits) * (2 : ℚ) ^ ((exponent : ℤ) - (cfg.bias : ℤ))) } ∧
        ∃ (mant : BitVec 24) (value : Word),
          mant.toNat = 2 ^ 23 + fraction * 2 ^ (23 - cfg.fractionBits) ∧
          (value.toNat : Int) =
            sign.toNat * 2 ^ 31 + ((exponent : Int) - (cfg.bias : Int) + 127) * 2 ^ 23 +
              fraction * 2 ^ (23 - cfg.fractionBits) ∧
          exec (.normal cfg sign exponent fraction) s =
            .next { s with decoded :=
              if s.config.cfgOk = 1#1 then
                { cls := 3#3, numValid := 1#1, effExp := BitVec.ofInt 8 ((exponent : Int) - (cfg.bias : Int))
                  mant := mant, value := value }
              else { cls := 0#3, numValid := 0#1, effExp := 0#8, mant := 0#24, value := 0#32 } }

/-- 43_classify_reconstruct.md R123, R124: RECONSTRUCT's ports as functions of the field ports, written as the
selections of the rule (`portClass`, `portEffExp`, `portMant`, `portValue`). Nothing else changes. -/
def Obligations.ReconstructDrivesItsPorts : Prop :=
  ∀ (f : DecodedFields) (cfg : LayoutConfig) (s : State), f.inRange cfg = true →
    let exponent : Byte := BitVec.ofNat 8 f.exponent
    let fraction : BitVec 23 := BitVec.ofNat 23 f.fraction
    let cls := portClass cfg.exponentBits exponent fraction
    let effExp := portEffExp cls (BitVec.ofNat 7 cfg.bias) exponent
    let mant := portMant cls cfg.fractionBits fraction
    exec (.reconstruct f cfg) s =
      .next { s with decoded :=
        if s.config.cfgOk = 1#1 then
          { cls := cls, numValid := if cls = 1#3 ∨ cls = 2#3 ∨ cls = 3#3 then 1#1 else 0#1, effExp := effExp
            mant := mant, value := portValue cls cfg.exponentBits f.sign effExp mant }
        else { cls := 0#3, numValid := 0#1, effExp := 0#8, mant := 0#24, value := 0#32 } }

/-- RECONSTRUCT on extracted fields does exactly what the class row that RAW selects does
(43_classify_reconstruct.md R116, 30_encoding.md R61). -/
def Obligations.ReconstructIsTheSelectedClassRow : Prop :=
  ∀ (cfg : LayoutConfig) (raw : Word) (s : State),
    exec (.reconstruct (extractFields raw cfg) cfg) s = exec (decodeClass cfg raw) s

/-- CLASSIFY and RECONSTRUCT have no result on fields outside the layout's ranges
(43_classify_reconstruct.md R128 (e), 93_implementation_defined.md U4). -/
def Obligations.ReconstructRefusesFieldsOutsideTheLayout : Prop :=
  ∀ (f : DecodedFields) (cfg : LayoutConfig) (s : State),
    (2 ^ cfg.exponentBits ≤ f.exponent ∨ 2 ^ cfg.fractionBits ≤ f.fraction) →
      classify f cfg = none ∧ reconstruct f cfg = none ∧
        exec (.classify f cfg) s = .refused .fieldsOutsideLayout ∧
        exec (.reconstruct f cfg) s = .refused .fieldsOutsideLayout

/-- A table row given operands its own condition excludes is refused: the model's choice (log 10). -/
def Obligations.RowsRefuseOperandsTheyDoNotSelect : Prop :=
  (∀ (cfg : LayoutConfig) (sign : Bit) (fraction : Nat) (s : State),
      (fraction = 0 ∨ 2 ^ cfg.fractionBits ≤ fraction) →
        exec (.nan cfg sign fraction) s = .refused .rowNotSelected ∧
          exec (.subnormal cfg sign fraction) s = .refused .rowNotSelected) ∧
    (∀ (cfg : LayoutConfig) (sign : Bit) (exponent fraction : Nat) (s : State),
      (exponent = 0 ∨ 2 ^ cfg.exponentBits - 1 ≤ exponent ∨ 2 ^ cfg.fractionBits ≤ fraction) →
        exec (.normal cfg sign exponent fraction) s = .refused .rowNotSelected) ∧
    ∀ (fb eb : Byte) (s : State),
      (decodeConfig fb eb ≠ .cfgFractionIllegal fb eb →
          exec (.cfgFractionIllegal fb eb) s = .refused .rowNotSelected) ∧
        (decodeConfig fb eb ≠ .cfgExponentIllegal fb eb →
          exec (.cfgExponentIllegal fb eb) s = .refused .rowNotSelected) ∧
        (decodeConfig fb eb ≠ .cfgBothIllegal fb eb →
          exec (.cfgBothIllegal fb eb) s = .refused .rowNotSelected)

/-- Every instruction whose operands lie in its domain answers a next state (00_scope.md R18). -/
def Obligations.WellFormedInstructionsComplete : Prop :=
  ∀ (i : Instr) (s : State), i.wellFormed = true → Answers (exec i s)

/-- 43_classify_reconstruct.md R117: the effective exponent of each class and its range. The ranges are the spec's own
inference ("derived: from rule R84 and rule R85"). -/
def Obligations.EffectiveExponentByClass : Prop :=
  ∀ (f : DecodedFields) (cfg : LayoutConfig) (v : DecodedValue), reconstruct f cfg = some v →
    (v.classification = .normal → v.effectiveExponent = some ((f.exponent : Int) - (cfg.bias : Int))) ∧
      (v.classification = .subnormal ∨ v.classification = .zero →
        v.effectiveExponent = some (1 - (cfg.bias : Int))) ∧
      (v.classification = .infinity ∨ v.classification = .nan ↔ v.effectiveExponent = none) ∧
      ∀ e, v.effectiveExponent = some e → 1 - (cfg.bias : Int) ≤ e ∧ e ≤ cfg.bias ∧ -126 ≤ e ∧ e ≤ 127

/-- 43_classify_reconstruct.md R118: the mantissa multiplier of each class, a multiple of 2^-fb. -/
def Obligations.MantissaByClass : Prop :=
  ∀ (f : DecodedFields) (cfg : LayoutConfig) (v : DecodedValue), reconstruct f cfg = some v →
    (v.classification = .zero → v.mantissaMultiplier = some 0) ∧
      (v.classification = .subnormal →
        ∃ m, v.mantissaMultiplier = some m ∧ fracval f.fraction cfg.fractionBits = some m ∧ 0 < m ∧ m < 1) ∧
      (v.classification = .normal →
        ∃ x, fracval f.fraction cfg.fractionBits = some x ∧ v.mantissaMultiplier = some (1 + x) ∧ 1 ≤ 1 + x ∧
          1 + x < 2) ∧
      (v.classification = .infinity ∨ v.classification = .nan ↔ v.mantissaMultiplier = none) ∧
      ∀ m, v.mantissaMultiplier = some m → ∃ k : Nat, m * 2 ^ cfg.fractionBits = k

/-- 43_classify_reconstruct.md R119: a finite value is the mantissa times the power of two, an integer of at most 24
bits times a power of two, a multiple of 2^-149 and below 2^128. -/
def Obligations.FiniteValuesAreExactDyadics : Prop :=
  ∀ (f : DecodedFields) (cfg : LayoutConfig) (v : DecodedValue) (e : Int) (m : ℚ), reconstruct f cfg = some v →
    v.effectiveExponent = some e → v.mantissaMultiplier = some m →
      v.numericValue = .finite f.sign (m * (2 : ℚ) ^ e) ∧
        (∃ k : Nat, k < 2 ^ 24 ∧ m * (2 : ℚ) ^ e = (k : ℚ) * (2 : ℚ) ^ (e - (cfg.fractionBits : ℤ))) ∧
        (∃ k : Nat, m * (2 : ℚ) ^ e = (k : ℚ) * (2 : ℚ) ^ (-149 : ℤ)) ∧ m * (2 : ℚ) ^ e < (2 : ℚ) ^ (128 : ℤ)

/-- 43_classify_reconstruct.md R121: the sign of the fields is the sign of the result in all five classes, and enters
every numeric value but NaN. -/
def Obligations.SignIsPreserved : Prop :=
  ∀ (f : DecodedFields) (cfg : LayoutConfig) (v : DecodedValue), reconstruct f cfg = some v →
    v.sign = f.sign ∧ (v.numericValue = .nan ↔ v.classification = .nan) ∧
      (∀ b m, v.numericValue = .finite b m → b = f.sign ∧ 0 ≤ m) ∧
      (∀ b, v.numericValue = .infinite b → b = f.sign) ∧
      (v.classification = .zero → v.numericValue = .finite f.sign 0)

/-- 43_classify_reconstruct.md R126: the fields are recovered from the effective exponent and the mantissa. The clause
for Zero and Subnormal is the spec's own inference ("derived: from rule R114 and rule R115"). -/
def Obligations.ReencodingRecoversTheFields : Prop :=
  ∀ (f : DecodedFields) (cfg : LayoutConfig) (v : DecodedValue), reconstruct f cfg = some v →
    (v.classification = .normal →
        ∃ e m, v.effectiveExponent = some e ∧ v.mantissaMultiplier = some m ∧
          (f.exponent : Int) = e + cfg.bias ∧ (f.fraction : ℚ) = (m - 1) * 2 ^ cfg.fractionBits ∧ f.sign = v.sign) ∧
      (v.classification = .zero ∨ v.classification = .subnormal →
        ∃ m, v.mantissaMultiplier = some m ∧ f.exponent = 0 ∧ (f.fraction : ℚ) = m * 2 ^ cfg.fractionBits ∧
          f.sign = v.sign)

/-- 43_classify_reconstruct.md R127: the extreme values of a layout, the patterns of the smallest Normal and of
+infinity being the ones right after the largest Subnormal and the largest finite one. The rule is the spec's own
inference ("derived: from rule R114, rule R115 and rule R85"). -/
def Obligations.ExtremeValuesOfALayout : Prop :=
  ∀ cfg : LayoutConfig,
    let tiny : ℚ := (2 : ℚ) ^ (1 - (cfg.bias : ℤ) - (cfg.fractionBits : ℤ))
    let eps : ℚ := (2 : ℚ) ^ (-(cfg.fractionBits : ℤ))
    let smallestNormal : ℚ := (2 : ℚ) ^ (1 - (cfg.bias : ℤ))
    numberOf (cfg.assemble 0#1 0 1) cfg = .finite 0#1 tiny ∧
      numberOf (cfg.assemble 0#1 0 (2 ^ cfg.fractionBits - 1)) cfg = .finite 0#1 ((1 - eps) * smallestNormal) ∧
      numberOf (cfg.assemble 0#1 1 0) cfg = .finite 0#1 smallestNormal ∧
      numberOf (cfg.assemble 0#1 (cfg.allOnes - 1) (2 ^ cfg.fractionBits - 1)) cfg =
        .finite 0#1 ((2 - eps) * (2 : ℚ) ^ (cfg.bias : ℤ)) ∧
      numberOf (cfg.assemble 0#1 cfg.allOnes 0) cfg = .infinite 0#1 ∧
      (1 - eps) * smallestNormal + tiny = smallestNormal ∧
      (cfg.assemble 0#1 1 0).toNat = (cfg.assemble 0#1 0 (2 ^ cfg.fractionBits - 1)).toNat + 1 ∧
      (cfg.assemble 0#1 cfg.allOnes 0).toNat =
        (cfg.assemble 0#1 (cfg.allOnes - 1) (2 ^ cfg.fractionBits - 1)).toNat + 1

/-- 43_classify_reconstruct.md R127: the finite non-negative values increase strictly with the pattern: the spec's own
inference ("derived: from rule R114, rule R115 and rule R85"). -/
def Obligations.FiniteValuesIncreaseWithThePattern : Prop :=
  ∀ (cfg : LayoutConfig) (a b : Word), a.toNat < b.toNat → b.toNat < cfg.allOnes * 2 ^ cfg.fractionBits →
    ∃ p q, numberOf a cfg = .finite 0#1 p ∧ numberOf b cfg = .finite 0#1 q ∧ p < q

/-! ## The two views -/

/-- 30_encoding.md R68, 00_scope.md R15: EFFEXP read as a signed integer, MANT / 2^23 and CLASS show RECONSTRUCT's
function-view result, with NUM_VALID = 1 exactly when the two optional fields are present. The range -126..127 is the
spec's own inference (R68: "derived: from rule R117 and rule R9"). -/
def Obligations.PortsShowTheFunctionView : Prop :=
  ∀ (f : DecodedFields) (cfg : LayoutConfig) (s : State), s.config.cfgOk = 1#1 → f.inRange cfg = true →
    ∃ (t : State) (v : DecodedValue), exec (.reconstruct f cfg) s = .next t ∧ reconstruct f cfg = some v ∧
      t.decoded.cls = classCode v.classification ∧
      (t.decoded.mant.extractLsb' 23 1 = 1#1 ↔ v.classification = .normal) ∧
      -126 ≤ t.decoded.effExp.toInt ∧ t.decoded.effExp.toInt ≤ 127 ∧
      (match v.effectiveExponent, v.mantissaMultiplier with
        | some e, some m =>
            t.decoded.numValid = 1#1 ∧ t.decoded.effExp.toInt = e ∧ (t.decoded.mant.toNat : ℚ) / 2 ^ 23 = m
        | none, none =>
            t.decoded.numValid = 0#1 ∧ t.decoded.effExp = 0#8 ∧ t.decoded.mant = 0#24
        | _, _ => False)

/-- 30_encoding.md R69: VALUE, decoded by this block's own rules under (23, 8), is the same number; it is the only
such pattern for a finite or infinite result, and 0x7FC00000 for NaN. -/
def Obligations.ValuePortIsTheSameNumber : Prop :=
  ∀ (f : DecodedFields) (cfg : LayoutConfig) (s : State), s.config.cfgOk = 1#1 → f.inRange cfg = true →
    ∃ (t : State) (v : DecodedValue), exec (.reconstruct f cfg) s = .next t ∧ reconstruct f cfg = some v ∧
      numberOf t.decoded.value valueLayout = v.numericValue ∧
      (v.numericValue = .nan → t.decoded.value = 0x7FC00000#32) ∧
      (v.numericValue ≠ .nan → ∀ w : Word, numberOf w valueLayout = v.numericValue → w = t.decoded.value)

/-- 43_classify_reconstruct.md R125: under (23, 8) VALUE is RAW, but for NaN, where it is 0x7FC00000: the spec's own
inference ("derived: from rule R124"). -/
def Obligations.SinglePrecisionIsTheIdentity : Prop :=
  ∀ (raw : Word) (s : State) (rest : List Stimulus),
    ∃ t, step { s with pending := { fb := 23#8, eb := 8#8, raw := raw } :: rest } = .next t ∧
      t.decoded.value =
        if raw.extractLsb' 23 8 = 0xFF#8 ∧ raw.extractLsb' 0 23 ≠ 0#23 then 0x7FC00000#32 else raw

/-! ## DECODE and the step -/

/-- 44_decode_pipeline.md R139: on every input triple DECODE drives the complete output function, which the spec marks
as its own inference ("derived: from rule R87, rule R96, rule R123 and rule R138"). -/
def Obligations.DecodeDrivesTheCompleteOutputFunction : Prop :=
  ∀ (st : Stimulus) (s : State),
    exec (.decode st.fb.toNat st.eb.toNat st.raw) s =
      .next { s with
        config := (portFunction st).config, fields := (portFunction st).fields, decoded := (portFunction st).decoded }

/-- 44_decode_pipeline.md R135, R136: DECODE in the function view is VALIDATE, then EXTRACT, then RECONSTRUCT, and
returns the ConfigError and nothing else when VALIDATE fails. -/
def Obligations.DecodeComposesTheThreeFunctions : Prop :=
  ∀ (fb eb : Int) (raw : Word),
    (∀ e, validate fb eb = .error e → decodeTriple fb eb raw = .error e) ∧
      ∀ cfg, validate fb eb = .ok cfg →
        ∃ v, reconstruct (extractFields raw cfg) cfg = some v ∧
          decodeTriple fb eb raw = .ok { cfg := cfg, fields := extractFields raw cfg, value := v }

/-- A step runs the row the decoder reads from the triple presented: under a legal layout after CFG_LEGAL and EXTRACT,
otherwise alone. That a step is these arms one after another is the model's choice (log 6): 20_memory.md R47 orders
the stages by data dependency only, and 44_decode_pipeline.md R136 stops after a failed VALIDATE. -/
def Obligations.StepRunsTheDecodedInstruction : Prop :=
  ∀ s : State,
    (∀ cfg, LayoutConfig.ofWidths s.present.input.fb.toNat s.present.input.eb.toNat = some cfg →
        step s =
          andThen (exec (.cfgLegal cfg) s.present) fun s1 =>
            andThen (exec (.extract s.present.input.raw cfg) s1) fun s2 =>
              exec (decodeStimulus s.present.input) s2) ∧
      (LayoutConfig.ofWidths s.present.input.fb.toNat s.present.input.eb.toNat = none →
        step s = exec (decodeStimulus s.present.input) s.present)

/-- The word of a table row, put with withFetchWord, is the triple the next step presents: the model's convention
(log 5). -/
def Obligations.FetchWordIsPresentedNext : Prop :=
  ∀ (s : State) (nbits w : Nat) (i : Instr), decodeTableWord nbits w = some i →
    ∃ st, decodeStimulus st = i ∧ (s.withFetchWord nbits w).present = { s with input := st }

/-- 44_decode_pipeline.md R135, 30_encoding.md R65: one step, made of the table rows the triple selects (the model's
choice, log 6), is one DECODE, the pipeline of the units. -/
def Obligations.StepIsOneDecode : Prop :=
  ∀ s : State,
    step s = exec (.decode s.present.input.fb.toNat s.present.input.eb.toNat s.present.input.raw) s.present

/-- 44_decode_pipeline.md R144, 70_reset_and_hazards.md R175: no triple stops the block. -/
def Obligations.EveryStepAnswers : Prop := ∀ s : State, Answers (step s)

/-- 10_state.md R20, 44_decode_pipeline.md R139: after a step every output is the function of the triple on the input
ports, whatever the state before. -/
def Obligations.StepKeepsOutputsConsistent : Prop :=
  ∀ s t : State, step s = .next t → t.consistent

/-- 20_memory.md R46: equal triples give equal outputs, whatever was evaluated before. -/
def Obligations.OutputsDependOnTheTripleAlone : Prop :=
  ∀ s s' : State, s.present.input = s'.present.input →
    ∃ t t', step s = .next t ∧ step s' = .next t' ∧ t.outputs = t'.outputs

/-- 20_memory.md R44: evaluating the triple held once more changes nothing. That a step with nothing pending evaluates
the triple held again is the model's choice (log 4). -/
def Obligations.EvaluationIsIdempotent : Prop :=
  ∀ s t : State, s.pending = [] → step s = .next t → step t = .next t

/-- 30_encoding.md R73: after a step no output code is one that is never produced: the spec's own inference ("derived:
from rule R66, rule R67, rule R87, rule R123"). -/
def Obligations.StepProducesLegalCodes : Prop :=
  ∀ s t : State, step s = .next t → t.outputs.codesLegal

/-- 44_decode_pipeline.md R138, 10_state.md R34: every instruction keeps the qualification by CFG_OK. -/
def Obligations.EveryInstructionKeepsTheQualification : Prop :=
  ∀ (i : Instr) (s t : State), s.qualified → exec i s = .next t → t.qualified

/-- No instruction writes the input ports, which the environment chooses (10_state.md R22, R39), or the caller's list,
which is the model's own field (log 2), as are the arms run alone (log 6). -/
def Obligations.NoInstructionWritesTheInputs : Prop :=
  ∀ (i : Instr) (s t : State), exec i s = .next t → t.input = s.input ∧ t.pending = s.pending

/-- 60_exceptions.md R145, R151: errors are detected by VALIDATE alone: no other unit and no class row changes CFG_OK,
ERR, TOTAL_BITS or BIAS, and the field ports, EXTRACT's (10_state.md R23), are otherwise only forced to the zeros of
CFG_OK = 0 (44_decode_pipeline.md R138; log 8). The decoded group is the next statement's. -/
def Obligations.OnlyValidationWritesTheConfigurationPorts : Prop :=
  ∀ (i : Instr) (s t : State), exec i s = .next t →
    (t.config = s.config ∨ (∃ fb eb, i = .validate fb eb) ∨ (∃ fb eb raw, i = .decode fb eb raw) ∨
        (∃ cfg, i = .cfgLegal cfg) ∨ (∃ fb eb, i = .cfgFractionIllegal fb eb) ∨
        (∃ fb eb, i = .cfgExponentIllegal fb eb) ∨ ∃ fb eb, i = .cfgBothIllegal fb eb) ∧
      (t.fields = s.fields ∨ (∃ raw cfg, i = .extract raw cfg) ∨ (∃ fb eb raw, i = .decode fb eb raw) ∨
        t.config.cfgOk = 0#1 ∧ t.fields = FieldPorts.none)

/-- 10_state.md R23, R34: which operations write the decoded group. NUM_VALID, EFFEXP, VALUE and MANT[23] change only by
RECONSTRUCT, by DECODE and the class rows, which contain it, or to the zeros of CFG_OK = 0 (44_decode_pipeline.md
R138; log 8); CLASS changes by CLASSIFY as well (43_classify_reconstruct.md R110; log 20), and MANT[22:0] by FRACVAL as
well (42_fractional_value.md R103). That FRACVAL leaves MANT[23] unchanged is the model's choice (log 17), and that
CLASSIFY leaves NUM_VALID unchanged is DEDUCED (log 20). -/
def Obligations.OnlyReconstructionWritesTheDecodedPorts : Prop :=
  ∀ (i : Instr) (s t : State), exec i s = .next t →
    let whole :=
      (∃ f cfg, i = .reconstruct f cfg) ∨ (∃ fb eb raw, i = .decode fb eb raw) ∨ (∃ cfg b, i = .infinity cfg b) ∨
        (∃ cfg b f, i = .nan cfg b f) ∨ (∃ cfg b, i = .zero cfg b) ∨ (∃ cfg b f, i = .subnormal cfg b f) ∨
        (∃ cfg b e f, i = .normal cfg b e f) ∨ t.config.cfgOk = 0#1 ∧ t.decoded = DecodedPorts.none
    ((t.decoded.numValid = s.decoded.numValid ∧ t.decoded.effExp = s.decoded.effExp ∧
          t.decoded.value = s.decoded.value ∧
          t.decoded.mant.extractLsb' 23 1 = s.decoded.mant.extractLsb' 23 1) ∨ whole) ∧
      (t.decoded.cls = s.decoded.cls ∨ (∃ f cfg, i = .classify f cfg) ∨ whole) ∧
      (t.decoded.mant.extractLsb' 0 23 = s.decoded.mant.extractLsb' 0 23 ∨ (∃ f fb, i = .fracval f fb) ∨ whole)

/-! ## Encoding -/

/-- Every row with an encoding is what the decoder reads from that encoding, and every well-formed class row and
illegal-configuration row has one (30_encoding.md R55, R63, R65, R70). -/
def Obligations.DecodeOfEncodeIsTheRow : Prop :=
  (∀ (i : Instr) (st : Stimulus), encode i = some st → decodeStimulus st = i) ∧
    (∀ (i : Instr) (fb eb : Byte), encodeConfig i = some (fb, eb) → decodeConfig fb eb = i) ∧
    ∀ i : Instr, i.wellFormed = true →
      ((∃ st, encode i = some st) ∨ (∃ p, encodeConfig i = some p) ∨ (∃ fb eb, i = .validate fb eb) ∨
        (∃ raw cfg, i = .extract raw cfg) ∨ (∃ f fb, i = .fracval f fb) ∨ (∃ f cfg, i = .classify f cfg) ∨
        (∃ f cfg, i = .reconstruct f cfg) ∨ ∃ fb eb raw, i = .decode fb eb raw)

/-- Encoding the row a triple decodes to gives the triple back without the ignored bits of RAW (20_memory.md R43,
30_encoding.md R71, R72). That the encoder writes the ignored bits, and the whole RAW of an illegal-configuration row,
as 0 is the model's choice (log 14). -/
def Obligations.EncodeOfDecodeIsThePattern : Prop :=
  (∀ (cfg : LayoutConfig) (raw : Word),
      encode (decodeStimulus (cfg.stimulus raw)) = some (cfg.stimulus (raw &&& cfg.patternMask))) ∧
    ∀ st : Stimulus, LayoutConfig.ofWidths st.fb.toNat st.eb.toNat = none →
      encode (decodeStimulus st) = some { st with raw := 0#32 }

/-- Words of opcode_table.json's numeric rows decode to their rows (sanity; 30_encoding.md R55, R61). That the length of
a word selects its layout, 8, 32 or 48 bits, is the model's convention (log 5). -/
def Obligations.TableWordsDecodeToTheirRows : Prop :=
  ∃ small : LayoutConfig, small.fractionBits = 4 ∧ small.exponentBits = 3 ∧
    decodeTableWord 8 0b11110000 = some (.infinity small 1#1) ∧
    decodeTableWord 8 0b01111001 = some (.nan small 0#1 9) ∧
    decodeTableWord 8 0b10000000 = some (.zero small 1#1) ∧
    decodeTableWord 8 0b00000101 = some (.subnormal small 0#1 5) ∧
    decodeTableWord 8 0b00011110 = some (.normal small 0#1 1 14) ∧
    decodeTableWord 32 0x7F800000 = some (.infinity valueLayout 0#1) ∧
    decodeTableWord 32 0xFFC00001 = some (.nan valueLayout 1#1 0x400001) ∧
    decodeTableWord 32 0x00000000 = some (.zero valueLayout 0#1) ∧
    decodeTableWord 32 0x007FFFFF = some (.subnormal valueLayout 0#1 0x7FFFFF) ∧
    decodeTableWord 32 0x40490FDB = some (.normal valueLayout 0#1 128 0x490FDB) ∧
    decodeTableWord 48 0x01030000001E = some (.cfgFractionIllegal 1#8 3#8) ∧
    decodeTableWord 48 0x04090000001E = some (.cfgExponentIllegal 4#8 9#8) ∧
    decodeTableWord 48 0x340B3FF00000 = some (.cfgBothIllegal 52#8 11#8)
end

