-- ==== Sys2Proof/Laws/Layout.lean ====
section
/-! SUPPORT. Widths, masks and fields of a layout. -/

namespace Sys2Proof

namespace LayoutConfig

variable (cfg : LayoutConfig)

theorem two_le_fb : 2 ≤ cfg.fractionBits := cfg.fraction_legal.1
theorem fb_le : cfg.fractionBits ≤ 23 := cfg.fraction_legal.2
theorem three_le_eb : 3 ≤ cfg.exponentBits := cfg.exponent_legal.1
theorem eb_le : cfg.exponentBits ≤ 8 := cfg.exponent_legal.2

/-- The size invariant, 00_scope.md R8. -/
theorem totalBits_le : cfg.totalBits ≤ 32 := by
  have := cfg.fb_le; have := cfg.eb_le; unfold LayoutConfig.totalBits; omega

/-- The six exponent widths. -/
theorem eb_cases :
    cfg.exponentBits = 3 ∨ cfg.exponentBits = 4 ∨ cfg.exponentBits = 5 ∨ cfg.exponentBits = 6 ∨
      cfg.exponentBits = 7 ∨ cfg.exponentBits = 8 := by
  have := cfg.three_le_eb; have := cfg.eb_le; omega

theorem seven_le_allOnes : 7 ≤ cfg.allOnes := by
  unfold LayoutConfig.allOnes
  rcases cfg.eb_cases with h | h | h | h | h | h <;> rw [h] <;> decide

theorem allOnes_lt : cfg.allOnes < 2 ^ cfg.exponentBits := by
  have := Nat.two_pow_pos cfg.exponentBits; unfold LayoutConfig.allOnes; omega

/-- A layout is found from its own widths. -/
theorem ofWidths_self : LayoutConfig.ofWidths cfg.fractionBits cfg.exponentBits = some cfg := by
  unfold LayoutConfig.ofWidths
  rw [dif_pos cfg.fraction_legal, dif_pos cfg.exponent_legal]

/-- What it means that a layout is found. -/
theorem ofWidths_eq_some {fb eb : Nat} {c : LayoutConfig} :
    LayoutConfig.ofWidths fb eb = some c ↔ c.fractionBits = fb ∧ c.exponentBits = eb := by
  constructor
  · intro h
    unfold LayoutConfig.ofWidths at h
    split at h
    · split at h
      · cases h; exact ⟨rfl, rfl⟩
      · cases h
    · cases h
  · rintro ⟨rfl, rfl⟩; exact c.ofWidths_self

theorem ofWidths_eq_none {fb eb : Nat} :
    LayoutConfig.ofWidths fb eb = none ↔ fractionWidthLegal fb = false ∨ exponentWidthLegal eb = false := by
  unfold LayoutConfig.ofWidths fractionWidthLegal exponentWidthLegal
  simp only [Config.fbMin, Config.fbMax, Config.ebMin, Config.ebMax]
  split
  · split <;> simp <;> omega
  · simp; omega

end LayoutConfig

namespace Machine

/-- The fields EXTRACT gives, as quotients and remainders. -/
theorem extractFields_fraction (raw : Word) (cfg : LayoutConfig) :
    (extractFields raw cfg).fraction = raw.toNat % 2 ^ cfg.fractionBits := by
  simp [extractFields, Nat.shiftLeft_eq]

theorem extractFields_exponent (raw : Word) (cfg : LayoutConfig) :
    (extractFields raw cfg).exponent = raw.toNat / 2 ^ cfg.fractionBits % 2 ^ cfg.exponentBits := by
  simp [extractFields, Nat.shiftLeft_eq, Nat.shiftRight_eq_div_pow]

theorem extractFields_inRange (raw : Word) (cfg : LayoutConfig) : (extractFields raw cfg).inRange cfg = true := by
  have h1 := Nat.mod_lt (raw.toNat / 2 ^ cfg.fractionBits) (Nat.two_pow_pos cfg.exponentBits)
  have h2 := Nat.mod_lt raw.toNat (Nat.two_pow_pos cfg.fractionBits)
  simp [DecodedFields.inRange, extractFields_exponent, extractFields_fraction, h1, h2]

/-- VALIDATE's three outcomes. -/
theorem validate_cases (fb eb : Int) :
    (errFrac fb = true ∧ validate fb eb = .error .fractionOutOfRange) ∨
      (errFrac fb = false ∧ errExp eb = true ∧ validate fb eb = .error .exponentOutOfRange) ∨
      (errFrac fb = false ∧ errExp eb = false ∧
        ∃ cfg, validate fb eb = .ok cfg ∧ (cfg.fractionBits : Int) = fb ∧ (cfg.exponentBits : Int) = eb) := by
  unfold validate
  by_cases hf : errFrac fb = true
  · exact .inl ⟨hf, by simp [hf]⟩
  · by_cases he : errExp eb = true
    · exact .inr (.inl ⟨by simpa using hf, he, by simp [hf, he]⟩)
    · refine .inr (.inr ⟨by simpa using hf, by simpa using he, _, by rw [dif_neg hf, dif_neg he], ?_, ?_⟩)
      · simp only [errFrac, Config.fbMin, Bool.or_eq_true, decide_eq_true_eq] at hf
        show ((fb.toNat : Nat) : Int) = fb
        omega
      · simp only [errExp, Config.ebMin, Bool.or_eq_true, decide_eq_true_eq] at he
        show ((eb.toNat : Nat) : Int) = eb
        omega

/-- The two spellings of a legal fraction width. -/
theorem errFrac_natCast (n : Nat) : errFrac (n : Int) = !fractionWidthLegal n := by
  simp only [errFrac, fractionWidthLegal, Config.fbMin, Config.fbMax]
  rw [Bool.eq_iff_iff]
  simp only [Bool.or_eq_true, decide_eq_true_eq, Bool.not_eq_true', Bool.and_eq_false_iff, decide_eq_false_iff_not]
  omega

/-- The two spellings of a legal exponent width. -/
theorem errExp_natCast (n : Nat) : errExp (n : Int) = !exponentWidthLegal n := by
  simp only [errExp, exponentWidthLegal, Config.ebMin, Config.ebMax]
  rw [Bool.eq_iff_iff]
  simp only [Bool.or_eq_true, decide_eq_true_eq, Bool.not_eq_true', Bool.and_eq_false_iff, decide_eq_false_iff_not]
  omega

end Machine

end Sys2Proof
end

