-- ==== Sys2Proof/Laws/Masks.lean ====
section
/-! SUPPORT. The numbers the masks and the masked patterns stand for. -/

namespace Sys2Proof.LayoutConfig

variable (cfg : LayoutConfig) (raw : Word)

theorem pow_fb_le : 2 ^ cfg.fractionBits ≤ 2 ^ 23 := Nat.pow_le_pow_right (by decide) cfg.fb_le

theorem pow_eb_le : 2 ^ cfg.exponentBits ≤ 2 ^ 8 := Nat.pow_le_pow_right (by decide) cfg.eb_le

theorem pow_sum_le : 2 ^ (cfg.fractionBits + cfg.exponentBits) ≤ 2 ^ 31 :=
  Nat.pow_le_pow_right (by decide) (by have := cfg.fb_le; have := cfg.eb_le; omega)

/-- A mask of n low bits over k zeros takes out bits k to k + n - 1 in place. -/
theorem and_mask_eq (x n k : Nat) : x &&& ((2 ^ n - 1) * 2 ^ k) = x / 2 ^ k % 2 ^ n * 2 ^ k := by
  rw [← Nat.shiftLeft_eq, ← Nat.shiftLeft_eq, ← Nat.shiftRight_eq_div_pow]
  apply Nat.eq_of_testBit_eq
  intro i
  simp only [Nat.testBit_and, Nat.testBit_shiftLeft, Nat.testBit_two_pow_sub_one, Nat.testBit_mod_two_pow,
    Nat.testBit_shiftRight]
  by_cases h : k ≤ i
  · simp only [h, decide_true, Bool.true_and, Nat.add_sub_cancel' h]
    rw [Bool.and_comm]
  · simp [h]

theorem toNat_fracMask : cfg.fracMask.toNat = 2 ^ cfg.fractionBits - 1 := by
  have h := cfg.pow_fb_le
  have : (2 : Nat) ^ 23 = 8388608 := by decide
  rw [LayoutConfig.fracMask, BitVec.toNat_ofNat, Nat.mod_eq_of_lt (by omega)]

theorem toNat_expMask : cfg.expMask.toNat = (2 ^ cfg.exponentBits - 1) * 2 ^ cfg.fractionBits := by
  have h := cfg.pow_sum_le
  have h1 : (2 ^ cfg.exponentBits - 1) * 2 ^ cfg.fractionBits ≤ 2 ^ (cfg.fractionBits + cfg.exponentBits) := by
    rw [Nat.pow_add, Nat.mul_comm (2 ^ cfg.fractionBits)]
    exact Nat.mul_le_mul_right _ (Nat.sub_le _ _)
  have : (2 : Nat) ^ 31 = 2147483648 := by decide
  rw [LayoutConfig.expMask, BitVec.toNat_ofNat, Nat.mod_eq_of_lt (by omega)]

theorem toNat_signMask : cfg.signMask.toNat = 2 ^ (cfg.fractionBits + cfg.exponentBits) := by
  have h := cfg.pow_sum_le
  have : (2 : Nat) ^ 31 = 2147483648 := by decide
  rw [LayoutConfig.signMask, BitVec.toNat_ofNat, Nat.mod_eq_of_lt (by omega)]

theorem toNat_and_fracMask : (raw &&& cfg.fracMask).toNat = raw.toNat % 2 ^ cfg.fractionBits := by
  rw [BitVec.toNat_and, toNat_fracMask, Nat.and_two_pow_sub_one_eq_mod]

theorem toNat_and_expMask :
    (raw &&& cfg.expMask).toNat =
      raw.toNat / 2 ^ cfg.fractionBits % 2 ^ cfg.exponentBits * 2 ^ cfg.fractionBits := by
  rw [BitVec.toNat_and, toNat_expMask, and_mask_eq]

end Sys2Proof.LayoutConfig
end

