-- ==== Sys2Proof/Laws/State.lean ====
section
/-! SUPPORT. What each operation on the ports does to each field of State. -/

namespace Sys2Proof.Machine

variable (s : State)

@[simp] theorem driveLayout_input (cfg : LayoutConfig) : (s.driveLayout cfg).input = s.input := rfl
@[simp] theorem driveLayout_pending (cfg : LayoutConfig) : (s.driveLayout cfg).pending = s.pending := rfl
@[simp] theorem driveLayout_fields (cfg : LayoutConfig) : (s.driveLayout cfg).fields = s.fields := rfl
@[simp] theorem driveLayout_decoded (cfg : LayoutConfig) : (s.driveLayout cfg).decoded = s.decoded := rfl
@[simp] theorem driveLayout_config (cfg : LayoutConfig) :
    (s.driveLayout cfg).config =
      { cfgOk := 1#1, err := 0#2, totalBits := BitVec.ofNat 6 cfg.totalBits, bias := BitVec.ofNat 7 cfg.bias } :=
  rfl
@[simp] theorem driveLayout_configOk (cfg : LayoutConfig) : (s.driveLayout cfg).configOk = true := rfl

@[simp] theorem deliverError_input (f e : Bool) : (s.deliverError f e).input = s.input := rfl
@[simp] theorem deliverError_pending (f e : Bool) : (s.deliverError f e).pending = s.pending := rfl
@[simp] theorem deliverError_fields (f e : Bool) : (s.deliverError f e).fields = FieldPorts.none := rfl
@[simp] theorem deliverError_decoded (f e : Bool) : (s.deliverError f e).decoded = DecodedPorts.none := rfl
@[simp] theorem deliverError_config (f e : Bool) :
    (s.deliverError f e).config =
      { cfgOk := cfgOkBit f e, err := errCode f e, totalBits := 0#6, bias := 0#7 } := rfl

@[simp] theorem driveFields_input (f : DecodedFields) : (s.driveFields f).input = s.input := rfl
@[simp] theorem driveFields_pending (f : DecodedFields) : (s.driveFields f).pending = s.pending := rfl
@[simp] theorem driveFields_config (f : DecodedFields) : (s.driveFields f).config = s.config := rfl
@[simp] theorem driveFields_decoded (f : DecodedFields) : (s.driveFields f).decoded = s.decoded := rfl
@[simp] theorem driveFields_configOk (f : DecodedFields) : (s.driveFields f).configOk = s.configOk := rfl

@[simp] theorem driveClass_input (c : Classification) : (s.driveClass c).input = s.input := rfl
@[simp] theorem driveClass_pending (c : Classification) : (s.driveClass c).pending = s.pending := rfl
@[simp] theorem driveClass_config (c : Classification) : (s.driveClass c).config = s.config := rfl
@[simp] theorem driveClass_fields (c : Classification) : (s.driveClass c).fields = s.fields := rfl
@[simp] theorem driveClass_cls (c : Classification) :
    (s.driveClass c).decoded.cls = if s.configOk then classCode c else 0#3 := rfl
@[simp] theorem driveClass_numValid (c : Classification) :
    (s.driveClass c).decoded.numValid = s.decoded.numValid := rfl
@[simp] theorem driveClass_effExp (c : Classification) : (s.driveClass c).decoded.effExp = s.decoded.effExp := rfl
@[simp] theorem driveClass_mant (c : Classification) : (s.driveClass c).decoded.mant = s.decoded.mant := rfl
@[simp] theorem driveClass_value (c : Classification) : (s.driveClass c).decoded.value = s.decoded.value := rfl

@[simp] theorem driveFractionalValue_input (v : BitVec 23) : (s.driveFractionalValue v).input = s.input := rfl
@[simp] theorem driveFractionalValue_pending (v : BitVec 23) : (s.driveFractionalValue v).pending = s.pending :=
  rfl
@[simp] theorem driveFractionalValue_config (v : BitVec 23) : (s.driveFractionalValue v).config = s.config := rfl
@[simp] theorem driveFractionalValue_fields (v : BitVec 23) : (s.driveFractionalValue v).fields = s.fields := rfl
@[simp] theorem driveFractionalValue_cls (v : BitVec 23) :
    (s.driveFractionalValue v).decoded.cls = s.decoded.cls := rfl
@[simp] theorem driveFractionalValue_numValid (v : BitVec 23) :
    (s.driveFractionalValue v).decoded.numValid = s.decoded.numValid := rfl
@[simp] theorem driveFractionalValue_effExp (v : BitVec 23) :
    (s.driveFractionalValue v).decoded.effExp = s.decoded.effExp := rfl
@[simp] theorem driveFractionalValue_value (v : BitVec 23) :
    (s.driveFractionalValue v).decoded.value = s.decoded.value := rfl

@[simp] theorem driveDecoded_input (p : DecodedPorts) : (s.driveDecoded p).input = s.input := rfl
@[simp] theorem driveDecoded_pending (p : DecodedPorts) : (s.driveDecoded p).pending = s.pending := rfl
@[simp] theorem driveDecoded_config (p : DecodedPorts) : (s.driveDecoded p).config = s.config := rfl
@[simp] theorem driveDecoded_fields (p : DecodedPorts) : (s.driveDecoded p).fields = s.fields := rfl

theorem present_config : s.present.config = s.config := by unfold State.present; split <;> rfl
theorem present_fields : s.present.fields = s.fields := by unfold State.present; split <;> rfl
theorem present_decoded : s.present.decoded = s.decoded := by unfold State.present; split <;> rfl

end Sys2Proof.Machine
end

