-- ==== Sys2Proof/Laws/Ops.lean ====
section
/-! SUPPORT. One lemma for each shared operation that says all it does. -/

namespace Sys2Proof.Machine

variable (s : State)

/-- Presenting takes the head of the list or keeps the inputs, and touches no output. -/
theorem present_cases :
    (s.pending = [] ∧ s.present = s) ∨
      ∃ st rest, s.pending = st :: rest ∧ s.present = { s with input := st, pending := rest } := by
  cases h : s.pending with
  | nil => exact .inl ⟨rfl, by simp [State.present, h]⟩
  | cons st rest => exact .inr ⟨st, rest, rfl, by simp [State.present, h]⟩

@[simp] theorem present_of_nil (h : s.pending = []) : s.present = s := by simp [State.present, h]

@[simp] theorem present_cons (st : Stimulus) (rest : List Stimulus) :
    ({ s with pending := st :: rest } : State).present = { s with input := st, pending := rest } := rfl

theorem configOk_iff : s.configOk = true ↔ s.config.cfgOk = 1#1 := by simp [State.configOk]

/-- A wire that is not 1 is 0. -/
theorem bit_cases (b : Bit) : b = 0#1 ∨ b = 1#1 := by
  revert b; decide

theorem configOk_false_iff : s.configOk = false ↔ s.config.cfgOk = 0#1 := by
  rcases bit_cases s.config.cfgOk with h | h <;> simp [State.configOk, h]

/-- EXTRACT's ports after driving them. -/
theorem driveFields_eq (f : DecodedFields) :
    s.driveFields f =
      { s with fields :=
          if s.config.cfgOk = 1#1 then
            { sign := f.sign, exponent := BitVec.ofNat 8 f.exponent, fraction := BitVec.ofNat 23 f.fraction }
          else FieldPorts.none } := by
  simp [State.driveFields, State.configOk]

/-- The decoded group after driving CLASS: the other four ports keep their values. -/
theorem driveClass_eq (c : Classification) :
    s.driveClass c =
      { s with decoded := { s.decoded with cls := if s.config.cfgOk = 1#1 then classCode c else 0#3 } } := by
  simp [State.driveClass, State.configOk]

/-- The decoded group after driving it. -/
theorem driveDecoded_eq (p : DecodedPorts) :
    s.driveDecoded p = { s with decoded := if s.config.cfgOk = 1#1 then p else DecodedPorts.none } := by
  simp [State.driveDecoded, State.configOk]

theorem driveDecoded_of_ok (p : DecodedPorts) (h : s.config.cfgOk = 1#1) :
    s.driveDecoded p = { s with decoded := p } := by
  simp [driveDecoded_eq, h]

/-- With CFG_OK = 0 and the decoded group at zero, driving CLASS leaves the group at zero. -/
theorem driveClass_none (c : Classification) (h : s.config.cfgOk = 0#1) (hd : s.decoded = DecodedPorts.none) :
    (s.driveClass c).decoded = DecodedPorts.none := by
  simp [driveClass_eq, h, hd, DecodedPorts.none]

@[simp] theorem andThen_next (k : State → Host.Outcome State Fault Refusal) : andThen (.next s) k = k s := rfl

/-- A composition goes on exactly when its first part does and its second goes on from there. -/
theorem andThen_eq_next {o : Host.Outcome State Fault Refusal} {k : State → Host.Outcome State Fault Refusal}
    {t : State} (h : andThen o k = .next t) : ∃ u, o = .next u ∧ k u = .next t := by
  cases o with
  | next u => exact ⟨u, rfl, h⟩
  | fault r => simp [andThen] at h
  | refused r => simp [andThen] at h

/-- ERR is 0 exactly when no error is delivered. -/
theorem errCode_eq_zero (f e : Bool) : errCode f e = 0#2 ↔ f = false ∧ e = false := by
  cases f <;> cases e <;> decide

theorem cfgOkBit_eq_one (f e : Bool) : cfgOkBit f e = 1#1 ↔ f = false ∧ e = false := by
  cases f <;> cases e <;> decide

end Sys2Proof.Machine
end

