-- ==== Sys2Proof/Laws/PerInstr.lean ====
section
/-! SUPPORT. Facts about every constructor of Instr, one lemma each. -/

namespace Sys2Proof.Laws.IllFormedHasNoEncoding

/-- The encoder gives no triple for an instruction whose operands its rule excludes. -/
def Statement (i : Instr) : Prop := i.wellFormed = false → encode i = none

theorem of_illFormed {i : Instr} (h : i.wellFormed = false) : encode i = none := by simp [encode, h]

theorem validate (fb eb : Int) : Statement (.validate fb eb) := of_illFormed
theorem extract (raw : Word) (cfg : LayoutConfig) : Statement (.extract raw cfg) := of_illFormed
theorem fracval (fraction fb : Nat) : Statement (.fracval fraction fb) := of_illFormed
theorem classify (fields : DecodedFields) (cfg : LayoutConfig) : Statement (.classify fields cfg) := of_illFormed
theorem reconstruct (fields : DecodedFields) (cfg : LayoutConfig) : Statement (.reconstruct fields cfg) :=
  of_illFormed
theorem decode (fb eb : Int) (raw : Word) : Statement (.decode fb eb raw) := of_illFormed
theorem infinity (cfg : LayoutConfig) (sign : Bit) : Statement (.infinity cfg sign) := of_illFormed
theorem nan (cfg : LayoutConfig) (sign : Bit) (fraction : Nat) : Statement (.nan cfg sign fraction) := of_illFormed
theorem zero (cfg : LayoutConfig) (sign : Bit) : Statement (.zero cfg sign) := of_illFormed
theorem subnormal (cfg : LayoutConfig) (sign : Bit) (fraction : Nat) : Statement (.subnormal cfg sign fraction) :=
  of_illFormed
theorem normal (cfg : LayoutConfig) (sign : Bit) (exponent fraction : Nat) :
    Statement (.normal cfg sign exponent fraction) := of_illFormed
theorem cfgLegal (cfg : LayoutConfig) : Statement (.cfgLegal cfg) := of_illFormed
theorem cfgFractionIllegal (fb eb : Byte) : Statement (.cfgFractionIllegal fb eb) := of_illFormed
theorem cfgExponentIllegal (fb eb : Byte) : Statement (.cfgExponentIllegal fb eb) := of_illFormed
theorem cfgBothIllegal (fb eb : Byte) : Statement (.cfgBothIllegal fb eb) := of_illFormed

end Sys2Proof.Laws.IllFormedHasNoEncoding
end

