-- ==== Sys2Proof/Tests/Slice0.lean ====
section
/-! SUPPORT. The model's own tests. Expected results are the rows of spec/95_test_vectors.md, the masks of
spec/30_encoding.md R78 and the examples of the rules; witnesses show that the hypotheses of the statements are met. -/

namespace Sys2Proof.Tests

open Sys2Proof.Machine

/-! ## Helpers -/

/-- The layout (4, 3), the document's example. -/
def small : LayoutConfig := ⟨4, 3, by decide, by decide⟩

/-- The layout (23, 7). -/
def deep : LayoutConfig := ⟨23, 7, by decide, by decide⟩

/-- The state after an outcome. -/
def stateOf (o : Host.Outcome State Fault Refusal) : Option State :=
  match o with
  | .next s => some s
  | .fault _ => none
  | .refused _ => none

/-- The refusal of an outcome. -/
def refusalOf (o : Host.Outcome State Fault Refusal) : Option Refusal :=
  match o with
  | .next _ => none
  | .fault _ => none
  | .refused r => some r

/-- The reset state with CFG_OK = 1, as an accepted layout leaves it. -/
def accepted (cfg : LayoutConfig) : State := State.reset.driveLayout cfg

/-- An accepted layout with the ports of a Zero (43_classify_reconstruct.md R113) on the decoded group. -/
def afterZero (cfg : LayoutConfig) : State :=
  (accepted cfg).driveDecoded { cls := 1#3, numValid := 1#1, effExp := 0xFE#8, mant := 0#24, value := 0#32 }

/-- The output ports after one step on a stimulus word (30_encoding.md R76). -/
def shown (stim : BitVec 48) : Option Outputs :=
  (stateOf (step { State.reset with pending := [Stimulus.ofStim stim] })).map State.outputs

/-- A row of the tables of 95_test_vectors.md as outputs. -/
def row (tb : BitVec 6) (bias : BitVec 7) (sign : Bit) (e : Byte) (f : BitVec 23) (cls : BitVec 3) (nv : Bit)
    (eff : Byte) (mant : BitVec 24) (value : Word) : Outputs :=
  { config := { cfgOk := 1#1, err := 0#2, totalBits := tb, bias := bias }
    fields := { sign := sign, exponent := e, fraction := f }
    decoded := { cls := cls, numValid := nv, effExp := eff, mant := mant, value := value } }

/-- A row of 95_test_vectors.md section 2.6. -/
def errorRow (err : BitVec 2) : Outputs :=
  { config := { cfgOk := 0#1, err := err, totalBits := 0#6, bias := 0#7 }
    fields := FieldPorts.none, decoded := DecodedPorts.none }

/-! ## WellFormed refuses an ill-formed term for each check -/

theorem test_illFormed_fracval_width : (Instr.fracval 0 1).wellFormed = false := by decide
theorem test_illFormed_fracval_fraction : (Instr.fracval 16 4).wellFormed = false := by decide
theorem test_illFormed_classify_exponent :
    (Instr.classify { sign := 0#1, exponent := 8, fraction := 0 } small).wellFormed = false := by decide
theorem test_illFormed_reconstruct_fraction :
    (Instr.reconstruct { sign := 0#1, exponent := 7, fraction := 16 } small).wellFormed = false := by decide
theorem test_illFormed_nan_zero_fraction : (Instr.nan small 0#1 0).wellFormed = false := by decide
theorem test_illFormed_nan_wide_fraction : (Instr.nan small 0#1 16).wellFormed = false := by decide
theorem test_illFormed_subnormal_zero_fraction : (Instr.subnormal small 1#1 0).wellFormed = false := by decide
theorem test_illFormed_subnormal_wide_fraction : (Instr.subnormal small 1#1 16).wellFormed = false := by decide
theorem test_illFormed_normal_exponent_zero : (Instr.normal small 0#1 0 1).wellFormed = false := by decide
theorem test_illFormed_normal_exponent_ones : (Instr.normal small 0#1 7 1).wellFormed = false := by decide
theorem test_illFormed_normal_wide_fraction : (Instr.normal small 0#1 1 16).wellFormed = false := by decide
theorem test_illFormed_cfgFractionIllegal_legal : (Instr.cfgFractionIllegal 4#8 3#8).wellFormed = false := by decide
theorem test_illFormed_cfgFractionIllegal_both : (Instr.cfgFractionIllegal 1#8 2#8).wellFormed = false := by decide
theorem test_illFormed_cfgExponentIllegal_legal : (Instr.cfgExponentIllegal 23#8 8#8).wellFormed = false := by
  decide
theorem test_illFormed_cfgExponentIllegal_both : (Instr.cfgExponentIllegal 24#8 9#8).wellFormed = false := by decide
theorem test_illFormed_cfgBothIllegal_one : (Instr.cfgBothIllegal 1#8 3#8).wellFormed = false := by decide
theorem test_illFormed_cfgBothIllegal_other : (Instr.cfgBothIllegal 4#8 9#8).wellFormed = false := by decide

/-! ## Decoding words written out from the encodings: `s 111 ffff` and so on under (4, 3), fields of (23, 8) -/

theorem test_decode_infinity : decodeTableWord 8 0b1_111_0000 = some (.infinity small 1#1) := by decide
theorem test_decode_nan : decodeTableWord 8 0b0_111_1001 = some (.nan small 0#1 9) := by decide
theorem test_decode_zero : decodeTableWord 8 0b1_000_0000 = some (.zero small 1#1) := by decide
theorem test_decode_subnormal : decodeTableWord 8 0b0_000_0101 = some (.subnormal small 0#1 5) := by decide
theorem test_decode_normal : decodeTableWord 8 0b0_001_1110 = some (.normal small 0#1 1 14) := by decide
theorem test_decode_infinity_32 :
    decodeTableWord 32 0b0_11111111_00000000000000000000000 = some (.infinity valueLayout 0#1) := by decide
theorem test_decode_nan_32 :
    decodeTableWord 32 0b1_11111111_10000000000000000000001 = some (.nan valueLayout 1#1 0x400001) := by decide
theorem test_decode_zero_32 :
    decodeTableWord 32 0b0_00000000_00000000000000000000000 = some (.zero valueLayout 0#1) := by decide
theorem test_decode_subnormal_32 :
    decodeTableWord 32 0b0_00000000_11111111111111111111111 = some (.subnormal valueLayout 0#1 0x7FFFFF) := by
  decide
theorem test_decode_normal_32 :
    decodeTableWord 32 0b0_10000000_10010010000111111011011 = some (.normal valueLayout 0#1 128 0x490FDB) := by
  decide
theorem test_decode_cfgLegal : decodeConfig 4#8 3#8 = .cfgLegal small := by decide
theorem test_decode_cfgFractionIllegal :
    decodeTableWord 48 0x01030000001E = some (.cfgFractionIllegal 1#8 3#8) := by decide
theorem test_decode_cfgExponentIllegal :
    decodeTableWord 48 0x04090000001E = some (.cfgExponentIllegal 4#8 9#8) := by decide
theorem test_decode_cfgBothIllegal :
    decodeTableWord 48 0x340B3FF00000 = some (.cfgBothIllegal 52#8 11#8) := by decide
theorem test_decode_other_length : decodeTableWord 16 0x3C00 = none := by decide
/-- Section 2.7: bits above the pattern do not matter. -/
theorem test_decode_ignored_bits :
    decodeStimulus (Stimulus.ofStim 0x0403ABCDEF1E#48) = .normal small 0#1 1 14 := by decide

theorem test_encode_nan : encode (.nan small 1#1 9) = some { fb := 4#8, eb := 3#8, raw := 0xF9#32 } := by decide
theorem test_encode_normal :
    encode (.normal valueLayout 0#1 128 0x490FDB) = some { fb := 23#8, eb := 8#8, raw := 0x40490FDB#32 } := by
  decide
theorem test_encode_refuses : encode (.nan small 1#1 0) = none := by decide
theorem test_encodeConfig_legal : encodeConfig (.cfgLegal small) = some (4#8, 3#8) := by decide
theorem test_stim_order : (Stimulus.toStim { fb := 4#8, eb := 3#8, raw := 0x1E#32 }) = 0x04030000001E#48 := by decide

/-- 30_encoding.md R78, the rows (4, 3), (23, 7) and (23, 8). -/
theorem test_masks_small :
    (small.fracMask, small.expMask, small.signMask, small.patternMask) = (0xF#32, 0x70#32, 0x80#32, 0xFF#32) := by
  decide
theorem test_masks_deep :
    (deep.fracMask, deep.expMask, deep.signMask, deep.patternMask) =
      (0x007FFFFF#32, 0x3F800000#32, 0x40000000#32, 0x7FFFFFFF#32) := by decide
theorem test_masks_widest :
    (valueLayout.fracMask, valueLayout.expMask, valueLayout.signMask, valueLayout.patternMask) =
      (0x007FFFFF#32, 0x7F800000#32, 0x80000000#32, 0xFFFFFFFF#32) := by decide

/-! ## One operation or row on a small state (sections 2.1 to 2.6) -/

theorem test_validate_legal :
    (stateOf (exec (.validate 10 5) State.reset)).map State.config =
      some { cfgOk := 1#1, err := 0#2, totalBits := 0x10#6, bias := 0x0F#7 } := by decide
theorem test_validate_both_illegal :
    (stateOf (exec (.validate 52 11) (accepted small))).map State.outputs = some (errorRow 3#2) := by decide
theorem test_validate_negative : validate (-1) 3 = .error .fractionOutOfRange := by decide
theorem test_validate_negative_exponent : validate 4 (-1) = .error .exponentOutOfRange := by decide
theorem test_extract_ignores_high_bits :
    (stateOf (exec (.extract 0xFFFFFF1E#32 small) (accepted small))).map State.fields =
      some { sign := 0#1, exponent := 1#8, fraction := 14#23 } := by decide
theorem test_extract_31_bits :
    (stateOf (exec (.extract 0x40000000#32 deep) (accepted deep))).map State.fields =
      some { sign := 1#1, exponent := 0#8, fraction := 0#23 } := by decide
theorem test_fracval_mant :
    (stateOf (exec (.fracval 341 10) (accepted small))).map (fun s => s.decoded.mant.extractLsb' 0 23) =
      some 0x2AA000#23 := by decide
theorem test_fracval_value : fracval 14 4 = some (7 / 8) := by decide +kernel
/-- R110: CLASS is written; NUM_VALID, which another operation left at 1, is kept. -/
theorem test_classify_nan :
    (stateOf (exec (.classify { sign := 1#1, exponent := 7, fraction := 1 } small) (afterZero small))).map
      (fun s => (s.decoded.cls, s.decoded.numValid)) = some (5#3, 1#1) := by decide
/-- R110: CLASS is written; NUM_VALID, never driven, is kept at 0. -/
theorem test_classify_zero :
    (stateOf (exec (.classify { sign := 1#1, exponent := 0, fraction := 0 } small) (accepted small))).map
      State.decoded = some { DecodedPorts.none with cls := 1#3 } := by decide
/-- Section 1.1, the document's scenario. -/
theorem test_reconstruct_scenario :
    (stateOf (exec (.reconstruct { sign := 0#1, exponent := 1, fraction := 14 } small) (accepted small))).map
      State.decoded =
        some { cls := 3#3, numValid := 1#1, effExp := 0xFE#8, mant := 0xF00000#24, value := 0x3EF00000#32 } := by
  decide
theorem test_reconstruct_function_view :
    reconstruct { sign := 0#1, exponent := 1, fraction := 14 } small =
      some { classification := .normal, sign := 0#1, effectiveExponent := some (-2)
             mantissaMultiplier := some (15 / 8), numericValue := .finite 0#1 (15 / 32) } := by decide +kernel
theorem test_decode_pi :
    (stateOf (exec (.decode 23 8 0x40490FDB#32) State.reset)).map State.outputs =
      some (row 0x20#6 0x7F#7 0#1 0x80#8 0x490FDB#23 3#3 1#1 0x01#8 0xC90FDB#24 0x40490FDB#32) := by decide
theorem test_decode_illegal :
    (stateOf (exec (.decode 24 8 0x3F800000#32) (accepted small))).map State.outputs = some (errorRow 1#2) := by
  decide
theorem test_infinity_negative :
    (stateOf (exec (.infinity small 1#1) (accepted small))).map (fun s => s.decoded.value) =
      some 0xFF800000#32 := by decide
theorem test_nan_sign_dropped :
    (stateOf (exec (.nan small 1#1 15) (accepted small))).map State.decoded =
      some { cls := 5#3, numValid := 0#1, effExp := 0#8, mant := 0#24, value := 0x7FC00000#32 } := by decide
theorem test_zero_negative :
    (stateOf (exec (.zero small 1#1) (accepted small))).map State.decoded =
      some { cls := 1#3, numValid := 1#1, effExp := 0xFE#8, mant := 0#24, value := 0x80000000#32 } := by decide
/-- Section 2.5, the smallest stored exponent of VALUE. -/
theorem test_subnormal_deepest :
    (stateOf (exec (.subnormal deep 0#1 1) (accepted deep))).map (fun s => s.decoded.value) =
      some 0x15000000#32 := by decide
theorem test_subnormal_kept :
    (stateOf (exec (.subnormal valueLayout 0#1 0x400000) (accepted valueLayout))).map (fun s => s.decoded.value) =
      some 0x00400000#32 := by decide
theorem test_normal_largest :
    (stateOf (exec (.normal small 1#1 6 15) (accepted small))).map State.decoded =
      some { cls := 3#3, numValid := 1#1, effExp := 3#8, mant := 0xF80000#24, value := 0xC1780000#32 } := by decide
theorem test_cfgLegal :
    (stateOf (exec (.cfgLegal deep) State.reset)).map State.config =
      some { cfgOk := 1#1, err := 0#2, totalBits := 31#6, bias := 63#7 } := by decide
theorem test_cfgFractionIllegal :
    (stateOf (exec (.cfgFractionIllegal 24#8 8#8) (accepted small))).map State.outputs = some (errorRow 1#2) := by
  decide
theorem test_cfgExponentIllegal :
    (stateOf (exec (.cfgExponentIllegal 23#8 2#8) (accepted small))).map State.outputs = some (errorRow 2#2) := by
  decide
theorem test_cfgBothIllegal :
    (stateOf (exec (.cfgBothIllegal 255#8 255#8) (accepted small))).map State.outputs = some (errorRow 3#2) := by
  decide
/-- With CFG_OK = 0 the data outputs show zeros (41_extract.md R96). -/
theorem test_extract_unqualified :
    (stateOf (exec (.extract 0x1E#32 small) State.reset)).map State.fields = some FieldPorts.none := by decide

/-! ## One step on a stimulus word -/

theorem test_step_scenario :
    shown 0x04030000001E#48 =
      some (row 0x08#6 0x03#7 0#1 0x01#8 0x0E#23 3#3 1#1 0xFE#8 0xF00000#24 0x3EF00000#32) := by decide
theorem test_step_nan :
    shown 0x04030000007F#48 =
      some (row 0x08#6 0x03#7 0#1 0x07#8 0x0F#23 5#3 0#1 0x00#8 0x000000#24 0x7FC00000#32) := by decide
theorem test_step_subnormal :
    shown 0x0A05000003FF#48 =
      some (row 0x10#6 0x0F#7 0#1 0x00#8 0x3FF#23 2#3 1#1 0xF2#8 0x7FE000#24 0x387FC000#32) := by decide
theorem test_step_negative_zero :
    shown 0x170304000000#48 =
      some (row 0x1B#6 0x03#7 1#1 0x00#8 0x0#23 1#3 1#1 0xFE#8 0x000000#24 0x80000000#32) := by decide
theorem test_step_largest :
    shown 0x0208000007FB#48 =
      some (row 0x0B#6 0x7F#7 1#1 0xFE#8 0x3#23 3#3 1#1 0x7F#8 0xE00000#24 0xFF600000#32) := by decide
theorem test_step_infinity :
    shown 0x1608BFC00000#48 =
      some (row 0x1F#6 0x7F#7 0#1 0xFF#8 0x0#23 4#3 0#1 0x00#8 0x000000#24 0x7F800000#32) := by decide
theorem test_step_illegal : shown 0x1702FFFFFFFF#48 = some (errorRow 2#2) := by decide
theorem test_step_holds_inputs :
    (stateOf (step State.reset)).map State.outputs = some State.reset.outputs := by decide
theorem test_withFetchWord :
    (stateOf (step (State.reset.withFetchWord 8 0x70))).map (fun s => (s.decoded.cls, s.input.raw)) =
      some (4#3, 0x70#32) := by decide

/-! ## The hypotheses of the statements are met -/

theorem witness_StepTakesTheNextPendingTriple :
    ({ State.reset with pending := [valueLayout.stimulus 0#32] } : State).pending = valueLayout.stimulus 0#32 :: [] ∧
      State.reset.pending = [] := by decide
theorem witness_ValidateAcceptsLegalWidths_smallest : (2 : Int) ≤ 2 ∧ (2 : Int) ≤ 23 ∧ (3 : Int) ≤ 3 ∧ (3 : Int) ≤ 8 := by
  decide
theorem witness_ValidateAcceptsLegalWidths_largest :
    (2 : Int) ≤ 23 ∧ (23 : Int) ≤ 23 ∧ (3 : Int) ≤ 8 ∧ (8 : Int) ≤ 8 := by decide
theorem witness_ValidateReportsIllegalWidths_fraction : ((1 : Int) < 2 ∨ 23 < (1 : Int)) ∨ ((3 : Int) < 3 ∨ 8 < (3 : Int)) := by
  decide
theorem witness_ValidateReportsIllegalWidths_exponent :
    ((23 : Int) < 2 ∨ 23 < (23 : Int)) ∨ ((9 : Int) < 3 ∨ 8 < (9 : Int)) := by decide
theorem witness_ValidateReportsIllegalWidths_both :
    ((24 : Int) < 2 ∨ 23 < (24 : Int)) ∧ ((2 : Int) < 3 ∨ 8 < (2 : Int)) ∧
      validate 24 2 = .error .fractionOutOfRange := by decide
theorem witness_ErrorCodeMatchesTheReturnedError_both :
    (stateOf (exec (.validate 24 2) State.reset)).map (fun s => s.config.err) = some 3#2 := by decide
theorem witness_FailedValidationForcesZeros_fraction : validate 24 8 = .error .fractionOutOfRange := by decide
theorem witness_FailedValidationForcesZeros_exponent : validate 2 2 = .error .exponentOutOfRange := by decide
theorem witness_ConfigurationRows_fraction : (Instr.cfgFractionIllegal 1#8 3#8).wellFormed = true := by decide
theorem witness_ConfigurationRows_exponent : (Instr.cfgExponentIllegal 23#8 9#8).wellFormed = true := by decide
theorem witness_ConfigurationRows_both : (Instr.cfgBothIllegal 24#8 2#8).wellFormed = true := by decide
theorem witness_fields_in_range_smallest :
    (DecodedFields.mk 0#1 0 0).inRange small = true := by decide
theorem witness_fields_in_range_largest :
    (DecodedFields.mk 1#1 255 8388607).inRange valueLayout = true := by decide
theorem witness_accepted_state : (accepted small).config.cfgOk = 1#1 := by decide
theorem witness_HighBitsOfRawAreIgnored :
    0x1E#32 &&& small.patternMask = 0xABCDEF1E#32 &&& small.patternMask := by decide
theorem witness_FractionalValue_smallest : 2 ≤ 2 ∧ 2 ≤ 23 ∧ 0 < 2 ^ 2 ∧ 0 + 1 < 2 ^ 2 := by decide
theorem witness_FractionalValue_largest : 2 ≤ 23 ∧ 23 ≤ 23 ∧ 8388606 < 8388607 ∧ 8388607 < 2 ^ 23 := by decide
theorem witness_FracvalRefuses_width : (1 < 2 ∨ 23 < 1 ∨ 2 ^ 1 ≤ 0) ∧ (24 < 2 ∨ 23 < 24 ∨ 2 ^ 24 ≤ 0) := by decide
theorem witness_FracvalRefuses_fraction : 4 < 2 ∨ 23 < 4 ∨ 2 ^ 4 ≤ 16 := by decide
theorem witness_ClassifyDrivesTheClass_infinity :
    classify { sign := 0#1, exponent := 2 ^ small.exponentBits - 1, fraction := 0 } small = some .infinity := by decide
theorem witness_ClassifyDrivesTheClass_nan :
    classify { sign := 0#1, exponent := 2 ^ small.exponentBits - 1, fraction := 1 } small = some .nan := by decide
theorem witness_ClassifyDrivesTheClass_zero :
    classify { sign := 0#1, exponent := 0, fraction := 0 } small = some .zero := by decide
theorem witness_ClassifyDrivesTheClass_subnormal :
    classify { sign := 0#1, exponent := 0, fraction := 1 } small = some .subnormal := by decide
theorem witness_ClassifyDrivesTheClass_normal :
    classify { sign := 0#1, exponent := 6, fraction := 0 } small = some .normal := by decide
theorem witness_NanRow : 0 < 1 ∧ 1 < 2 ^ small.fractionBits ∧ 15 < 2 ^ small.fractionBits := by decide
theorem witness_SubnormalRow_kept : 0 < 127 ∧ 127 < 2 ^ valueLayout.fractionBits ∧ valueLayout.exponentBits = 8 := by
  decide
theorem witness_SubnormalRow_normalised : 0 < 1 ∧ 1 < 2 ^ deep.fractionBits ∧ deep.exponentBits < 8 := by decide
theorem witness_NormalRow_least : 1 ≤ 1 ∧ 1 ≤ 2 ^ small.exponentBits - 2 ∧ 0 < 2 ^ small.fractionBits := by decide
theorem witness_NormalRow_greatest : 1 ≤ 6 ∧ 6 ≤ 2 ^ small.exponentBits - 2 ∧ 15 < 2 ^ small.fractionBits := by decide
theorem witness_ReconstructRefuses_exponent : 2 ^ small.exponentBits ≤ 8 ∨ 2 ^ small.fractionBits ≤ 0 := by decide
theorem witness_ReconstructRefuses_fraction : 2 ^ small.exponentBits ≤ 0 ∨ 2 ^ small.fractionBits ≤ 16 := by decide
theorem witness_RowsRefuse_fraction : (0 = 0 ∨ 2 ^ small.fractionBits ≤ 0) ∧ (16 = 0 ∨ 2 ^ small.fractionBits ≤ 16) := by
  decide
theorem witness_RowsRefuse_normal :
    (0 = 0 ∨ 2 ^ small.exponentBits - 1 ≤ 0 ∨ 2 ^ small.fractionBits ≤ 0) ∧
      (7 = 0 ∨ 2 ^ small.exponentBits - 1 ≤ 7 ∨ 2 ^ small.fractionBits ≤ 0) := by decide
theorem witness_RowsRefuse_config :
    decodeConfig 4#8 3#8 ≠ .cfgFractionIllegal 4#8 3#8 ∧ decodeConfig 1#8 3#8 ≠ .cfgExponentIllegal 1#8 3#8 ∧
      decodeConfig 4#8 9#8 ≠ .cfgBothIllegal 4#8 9#8 := by decide
/-- Section 2.4, row 0x8F of (4, 3): a finite value for the statements about RECONSTRUCT's result. -/
theorem witness_reconstruct_subnormal :
    reconstruct { sign := 1#1, exponent := 0, fraction := 15 } small =
      some { classification := .subnormal, sign := 1#1, effectiveExponent := some (-2)
             mantissaMultiplier := some (15 / 16), numericValue := .finite 1#1 (15 / 64) } := by decide +kernel
theorem witness_reconstruct_zero :
    reconstruct { sign := 1#1, exponent := 0, fraction := 0 } small =
      some { classification := .zero, sign := 1#1, effectiveExponent := some (-2), mantissaMultiplier := some 0
             numericValue := .finite 1#1 0 } := by decide +kernel
theorem witness_reconstruct_infinity :
    reconstruct { sign := 1#1, exponent := 7, fraction := 0 } small =
      some { classification := .infinity, sign := 1#1, effectiveExponent := none, mantissaMultiplier := none
             numericValue := .infinite 1#1 } := by decide +kernel
theorem witness_reconstruct_nan :
    reconstruct { sign := 1#1, exponent := 7, fraction := 1 } small =
      some { classification := .nan, sign := 1#1, effectiveExponent := none, mantissaMultiplier := none
             numericValue := .nan } := by decide +kernel
theorem witness_FiniteValuesIncrease_least :
    (0x00#32).toNat < (0x01#32).toNat ∧ (0x01#32).toNat < small.allOnes * 2 ^ small.fractionBits := by decide
theorem witness_FiniteValuesIncrease_greatest :
    (0x6E#32).toNat < (0x6F#32).toNat ∧ (0x6F#32).toNat < small.allOnes * 2 ^ small.fractionBits := by decide
theorem witness_DecodeComposes_fails : validate 24 9 = .error .fractionOutOfRange := by decide
theorem witness_DecodeComposes_succeeds : validate 4 3 = .ok small := by decide
theorem witness_StepRunsTheDecodedInstruction_legal :
    LayoutConfig.ofWidths
        ({ State.reset with pending := [small.stimulus 0x1E#32] } : State).present.input.fb.toNat
        ({ State.reset with pending := [small.stimulus 0x1E#32] } : State).present.input.eb.toNat =
      some small := by decide
theorem witness_StepRunsTheDecodedInstruction_illegal :
    LayoutConfig.ofWidths State.reset.present.input.fb.toNat State.reset.present.input.eb.toNat = none := by decide
theorem witness_FetchWordIsPresentedNext : decodeTableWord 8 0x1E = some (.normal small 0#1 1 14) := by decide
/-- A step that answers, from a state that another evaluation left. -/
theorem witness_step_answers :
    step { accepted small with pending := [{ fb := 1#8, eb := 3#8, raw := 0x1E#32 }] } =
      .next
        { input := { fb := 1#8, eb := 3#8, raw := 0x1E#32 }
          config := { cfgOk := 0#1, err := 1#2, totalBits := 0#6, bias := 0#7 }
          fields := FieldPorts.none, decoded := DecodedPorts.none, pending := [] } := rfl
theorem witness_EvaluationIsIdempotent : State.reset.pending = [] ∧ step State.reset = .next State.reset := ⟨rfl, rfl⟩
theorem witness_OutputsDependOnTheTripleAlone :
    ({ State.reset with pending := [small.stimulus 0x1E#32] } : State).present.input =
      ({ accepted deep with pending := [small.stimulus 0x1E#32] } : State).present.input := by decide
theorem witness_EveryInstructionKeepsTheQualification :
    State.reset.qualified ∧ exec (.cfgLegal small) State.reset = .next (accepted small) :=
  ⟨⟨by decide, by decide⟩, rfl⟩
theorem witness_OnlyValidationWrites_legal : exec (.cfgLegal small) State.reset = .next (accepted small) := rfl
theorem witness_OnlyValidationWrites_extract : exec (.extract 0x1E#32 small) (accepted small) =
    .next ((accepted small).driveFields { sign := 0#1, exponent := 1, fraction := 14 }) := rfl
theorem witness_OnlyReconstructionWrites_classify :
    exec (.classify { sign := 0#1, exponent := 7, fraction := 0 } small) (afterZero small) =
      .next ((afterZero small).driveClass .infinity) := rfl
theorem witness_OnlyReconstructionWrites_fracval :
    exec (.fracval 14 4) (afterZero small) = .next ((afterZero small).driveFractionalValue 0x700000#23) := rfl
theorem witness_OnlyReconstructionWrites_failed :
    exec (.validate 1 3) (afterZero small) = .next ((afterZero small).deliverError true false) := rfl
theorem witness_NoInstructionWritesTheInputs : exec (.zero small 1#1) (accepted small) =
    .next ((accepted small).driveDecoded
      { cls := 1#3, numValid := 1#1, effExp := 0xFE#8, mant := 0#24, value := 0x80000000#32 }) := rfl
theorem witness_DecodeOfEncode : encode (.zero small 1#1) = some (small.stimulus 0x80#32) := by decide
theorem witness_DecodeOfEncodeConfig : encodeConfig (.cfgBothIllegal 24#8 2#8) = some (24#8, 2#8) := by decide
theorem witness_EncodeOfDecode_illegal : LayoutConfig.ofWidths (24#8).toNat (9#8).toNat = none := by decide

end Sys2Proof.Tests
end

/-! SUPPORT. The row a pattern decodes to, by the fields EXTRACT gives and their class (30_encoding.md R58, R61, R63). -/

namespace Sys2Proof.Machine

/-- The class row with the given fields, chosen by CLASSIFY's rule; `decodeClass_eq_classRow` ties it to the decode
table. -/
def classRow (fields : DecodedFields) (cfg : LayoutConfig) : Instr :=
  match classOf fields cfg with
  | .infinity => .infinity cfg fields.sign
  | .nan => .nan cfg fields.sign fields.fraction
  | .zero => .zero cfg fields.sign
  | .subnormal => .subnormal cfg fields.sign fields.fraction
  | .normal => .normal cfg fields.sign fields.exponent fields.fraction

section
variable (cfg : LayoutConfig) (raw : Word)

theorem extractFields_fraction_lt : (extractFields raw cfg).fraction < 2 ^ cfg.fractionBits := by
  rw [extractFields_fraction]
  exact Nat.mod_lt _ (Nat.two_pow_pos _)

/-! ### The masks take out EXTRACT's fields -/

theorem maskedFraction_eq : cfg.maskedFraction raw = (extractFields raw cfg).fraction := by
  rw [extractFields_fraction, LayoutConfig.maskedFraction, LayoutConfig.toNat_and_fracMask]

theorem toNat_and_expMask_eq_mul :
    (raw &&& cfg.expMask).toNat = (extractFields raw cfg).exponent * 2 ^ cfg.fractionBits := by
  rw [extractFields_exponent, LayoutConfig.toNat_and_expMask]

theorem maskedExponent_eq : cfg.maskedExponent raw = (extractFields raw cfg).exponent := by
  rw [LayoutConfig.maskedExponent, BitVec.toNat_ushiftRight, toNat_and_expMask_eq_mul, Nat.shiftRight_eq_div_pow,
    Nat.mul_div_cancel _ (Nat.two_pow_pos _)]

theorem maskedSign_eq : cfg.maskedSign raw = (extractFields raw cfg).sign := by
  apply BitVec.eq_of_toNat_eq
  have hbit : (2 : Nat) ^ (cfg.fractionBits + cfg.exponentBits) =
      (2 ^ 1 - 1) * 2 ^ (cfg.fractionBits + cfg.exponentBits) := by omega
  rw [LayoutConfig.maskedSign, BitVec.toNat_setWidth, BitVec.toNat_ushiftRight, BitVec.toNat_and,
    LayoutConfig.toNat_signMask, hbit, LayoutConfig.and_mask_eq, Nat.shiftRight_eq_div_pow,
    Nat.mul_div_cancel _ (Nat.two_pow_pos _)]
  simp [extractFields, Nat.shiftRight_eq_div_pow]

/-- Exponent and fraction taken out together are their places' sum. -/
theorem toNat_and_fieldMasks :
    (raw &&& (cfg.expMask ||| cfg.fracMask)).toNat =
      (extractFields raw cfg).exponent * 2 ^ cfg.fractionBits + (extractFields raw cfg).fraction := by
  rw [BitVec.and_or_distrib_left, BitVec.toNat_or, toNat_and_expMask_eq_mul, LayoutConfig.toNat_and_fracMask,
    ← extractFields_fraction, ← Nat.shiftLeft_eq,
    Nat.shiftLeft_add_eq_or_of_lt (extractFields_fraction_lt cfg raw)]

/-! ### The decode table's conditions, as conditions on the fields -/

theorem mul_add_eq_mul_iff {p a b c : Nat} (hb : b < p) : a * p + b = c * p ↔ a = c ∧ b = 0 := by
  constructor
  · intro h
    have hmod : (a * p + b) % p = c * p % p := congrArg (· % p) h
    rw [Nat.mul_add_mod_of_lt hb, Nat.mul_mod_left] at hmod
    subst hmod
    exact ⟨Nat.eq_of_mul_eq_mul_right hb h, rfl⟩
  · rintro ⟨rfl, rfl⟩
    rfl

theorem and_expMask_eq_expMask_iff :
    raw &&& cfg.expMask = cfg.expMask ↔ (extractFields raw cfg).exponent = cfg.allOnes := by
  rw [← BitVec.toNat_inj, toNat_and_expMask_eq_mul, LayoutConfig.toNat_expMask]
  exact Nat.mul_left_inj (Nat.two_pow_pos _).ne'

theorem and_expMask_eq_zero_iff : raw &&& cfg.expMask = 0#32 ↔ (extractFields raw cfg).exponent = 0 := by
  rw [← BitVec.toNat_inj, toNat_and_expMask_eq_mul]
  simp

theorem and_fieldMasks_eq_expMask_iff :
    raw &&& (cfg.expMask ||| cfg.fracMask) = cfg.expMask ↔
      (extractFields raw cfg).exponent = cfg.allOnes ∧ (extractFields raw cfg).fraction = 0 := by
  rw [← BitVec.toNat_inj, toNat_and_fieldMasks, LayoutConfig.toNat_expMask]
  exact mul_add_eq_mul_iff (extractFields_fraction_lt cfg raw)

theorem and_fieldMasks_eq_zero_iff :
    raw &&& (cfg.expMask ||| cfg.fracMask) = 0#32 ↔
      (extractFields raw cfg).exponent = 0 ∧ (extractFields raw cfg).fraction = 0 := by
  rw [← BitVec.toNat_inj, toNat_and_fieldMasks]
  simp

/-- The decode table's five rows, tested by masks in priority order, are the five classes of the extracted fields. -/
theorem decodeClass_eq_classRow : decodeClass cfg raw = classRow (extractFields raw cfg) cfg := by
  unfold decodeClass classRow classOf
  simp only [and_fieldMasks_eq_expMask_iff, and_expMask_eq_expMask_iff, and_fieldMasks_eq_zero_iff,
    and_expMask_eq_zero_iff, maskedSign_eq, maskedExponent_eq, maskedFraction_eq]
  by_cases hones : (extractFields raw cfg).exponent = cfg.allOnes
  · by_cases hfrac : (extractFields raw cfg).fraction = 0 <;> simp [hones, hfrac]
  · by_cases hzero : (extractFields raw cfg).exponent = 0
    · rw [hzero] at hones
      by_cases hfrac : (extractFields raw cfg).fraction = 0 <;> simp [hones, hzero, hfrac]
    · simp [hones, hzero]

end

/-! ### Decoded rows are well-formed -/

theorem inRange_iff {f : DecodedFields} {cfg : LayoutConfig} :
    f.inRange cfg = true ↔ f.exponent < 2 ^ cfg.exponentBits ∧ f.fraction < 2 ^ cfg.fractionBits := by
  simp [DecodedFields.inRange]

theorem classRow_wellFormed {fields : DecodedFields} {cfg : LayoutConfig} (h : fields.inRange cfg = true) :
    (classRow fields cfg).wellFormed = true := by
  obtain ⟨hexp, hfrac⟩ := inRange_iff.mp h
  unfold classRow classOf
  split_ifs with hones hfracOnes hzero hfracZero
  · rfl
  · simp [Instr.wellFormed, hfrac, Nat.pos_of_ne_zero hfracOnes]
  · rfl
  · simp [Instr.wellFormed, hfrac, Nat.pos_of_ne_zero hfracZero]
  · have hle : fields.exponent ≤ 2 ^ cfg.exponentBits - 2 := by
      unfold LayoutConfig.allOnes at hones
      omega
    simp [Instr.wellFormed, hfrac, hle, Nat.one_le_iff_ne_zero.mpr hzero]

theorem decodeConfig_wellFormed (fb eb : Byte) : (decodeConfig fb eb).wellFormed = true := by
  unfold decodeConfig
  cases hw : LayoutConfig.ofWidths fb.toNat eb.toNat with
  | some cfg => rfl
  | none =>
    have hillegal := LayoutConfig.ofWidths_eq_none.mp hw
    dsimp only
    split_ifs with he hfOk
    · have hf := hillegal.resolve_right (by simp [he])
      simp [Instr.wellFormed, hf, he]
    · simp [Instr.wellFormed, hfOk, he]
    · simp [Instr.wellFormed, hfOk, he]

/-- Every triple decodes to a row whose operands lie in the row's domain. -/
theorem decodeStimulus_wellFormed (st : Stimulus) : (decodeStimulus st).wellFormed = true := by
  unfold decodeStimulus
  split
  · next cfg _ =>
    rw [decodeClass_eq_classRow]
    exact classRow_wellFormed (extractFields_inRange st.raw cfg)
  · exact decodeConfig_wellFormed st.fb st.eb

end Sys2Proof.Machine

/-! SUPPORT. When an instruction answers a next state, and what no instruction writes (00_scope.md R17, R18). -/

namespace Sys2Proof.Machine

theorem execValidate_answers (fb eb : Int) (s : State) : Answers (execValidate fb eb s) := by
  unfold execValidate
  cases validate fb eb with
  | error e => exact ⟨_, rfl⟩
  | ok cfg => exact ⟨_, rfl⟩

theorem execDecode_answers (fb eb : Int) (raw : Word) (s : State) : Answers (execDecode fb eb raw s) := by
  unfold execDecode
  cases validate fb eb with
  | error e => exact ⟨_, rfl⟩
  | ok cfg => exact ⟨_, rfl⟩

/-- An arm refuses only operands that `Instr.wellFormed` excludes. -/
theorem exec_answers_of_wellFormed {i : Instr} (s : State) (h : i.wellFormed = true) : Answers (exec i s) := by
  cases i with
  | validate fb eb => exact execValidate_answers fb eb s
  | extract raw cfg => exact ⟨_, rfl⟩
  | fracval fraction fb => exact ⟨_, if_pos h⟩
  | classify fields cfg => exact ⟨_, if_pos h⟩
  | reconstruct fields cfg => exact ⟨_, if_pos h⟩
  | decode fb eb raw => exact execDecode_answers fb eb raw s
  | infinity cfg sign => exact ⟨_, rfl⟩
  | nan cfg sign fraction => exact ⟨_, if_pos (by simpa [Instr.wellFormed] using h)⟩
  | zero cfg sign => exact ⟨_, rfl⟩
  | subnormal cfg sign fraction => exact ⟨_, if_pos (by simpa [Instr.wellFormed] using h)⟩
  | normal cfg sign exponent fraction => exact ⟨_, if_pos (by simpa [Instr.wellFormed] using h)⟩
  | cfgLegal cfg => exact ⟨_, rfl⟩
  | cfgFractionIllegal fb eb => exact ⟨_, if_pos h⟩
  | cfgExponentIllegal fb eb => exact ⟨_, if_pos h⟩
  | cfgBothIllegal fb eb => exact ⟨_, if_pos h⟩

/-- Settles O33: the one arm-by-arm reading of `exec`, `exec_answers_of_wellFormed`. -/
theorem wellFormedInstructionsComplete : Obligations.WellFormedInstructionsComplete := by
  unfold Obligations.WellFormedInstructionsComplete
  exact fun _ s h => exec_answers_of_wellFormed s h

/-! ### The caller's fields -/

/-- The two states hold the same input triple and the same pending list. -/
def State.SameCaller (s t : State) : Prop := t.input = s.input ∧ t.pending = s.pending

theorem State.SameCaller.trans {s t u : State} (hst : s.SameCaller t) (htu : t.SameCaller u) : s.SameCaller u :=
  ⟨htu.1.trans hst.1, htu.2.trans hst.2⟩

/-- A guarded arm that answers has answered its one next state. -/
theorem eq_of_ite_next_eq_next {c : Prop} [Decidable c] {u t : State} {r : Refusal}
    (h : (if c then Host.Outcome.next u else .refused r : Host.Outcome State Fault Refusal) = .next t) : u = t := by
  split at h
  · exact Host.Outcome.next.inj h
  · cases h

theorem execValidate_sameCaller {fb eb : Int} {s t : State} (h : execValidate fb eb s = .next t) :
    s.SameCaller t := by
  unfold execValidate at h
  split at h
  · cases h; exact ⟨rfl, rfl⟩
  · cases h; exact ⟨rfl, rfl⟩

theorem execDecode_sameCaller {fb eb : Int} {raw : Word} {s t : State} (h : execDecode fb eb raw s = .next t) :
    s.SameCaller t := by
  unfold execDecode at h
  split at h
  · cases h; exact ⟨rfl, rfl⟩
  · cases h; exact ⟨rfl, rfl⟩

/-- No instruction writes the input ports or the caller's list. -/
theorem exec_sameCaller {i : Instr} {s t : State} (h : exec i s = .next t) : s.SameCaller t := by
  cases i with
  | validate fb eb => exact execValidate_sameCaller h
  | decode fb eb raw => exact execDecode_sameCaller h
  | extract | infinity | zero | cfgLegal => cases h; exact ⟨rfl, rfl⟩
  | fracval | classify | reconstruct | nan | subnormal | normal | cfgFractionIllegal | cfgExponentIllegal
  | cfgBothIllegal => cases eq_of_ite_next_eq_next h; exact ⟨rfl, rfl⟩

/-! ### An evaluation answers, and keeps the caller's fields -/

theorem answers_andThen {o : Host.Outcome State Fault Refusal} {k : State → Host.Outcome State Fault Refusal}
    (ho : Answers o) (hk : ∀ u, Answers (k u)) : Answers (andThen o k) := by
  obtain ⟨u, rfl⟩ := ho
  exact hk u

theorem evaluate_answers (s : State) : Answers s.evaluate := by
  have hrow : ∀ u, Answers (exec (decodeStimulus s.input) u) := fun u =>
    exec_answers_of_wellFormed u (decodeStimulus_wellFormed s.input)
  unfold State.evaluate
  cases LayoutConfig.ofWidths s.input.fb.toNat s.input.eb.toNat with
  | none => exact hrow s
  | some cfg =>
    exact answers_andThen (exec_answers_of_wellFormed s rfl) fun u =>
      answers_andThen (exec_answers_of_wellFormed u rfl) hrow

theorem evaluate_sameCaller {s t : State} (h : s.evaluate = .next t) : s.SameCaller t := by
  unfold State.evaluate at h
  split at h
  · obtain ⟨s1, hlegal, hrest⟩ := andThen_eq_next h
    obtain ⟨s2, hextract, hrow⟩ := andThen_eq_next hrest
    exact ((exec_sameCaller hlegal).trans (exec_sameCaller hextract)).trans (exec_sameCaller hrow)
  · exact exec_sameCaller h

/-- A step answers, and shows the caller's fields as presenting left them. -/
theorem step_answers_sameCaller (s : State) : ∃ t, step s = .next t ∧ s.present.SameCaller t := by
  obtain ⟨t, ht⟩ := evaluate_answers s.present
  exact ⟨t, ht, evaluate_sameCaller ht⟩

/-- Settles O3: a step answers and leaves the caller's fields as `State.present` sets them. -/
theorem stepTakesTheNextPendingTriple : Obligations.StepTakesTheNextPendingTriple := by
  unfold Obligations.StepTakesTheNextPendingTriple
  refine ⟨fun s st rest hpending => ?_, fun s hpending => ?_⟩
  · obtain ⟨t, hstep, hinput, hrest⟩ := step_answers_sameCaller s
    have hpresent : s.present = { s with input := st, pending := rest } := by simp [State.present, hpending]
    rw [hpresent] at hinput hrest
    exact ⟨t, hstep, hinput, hrest⟩
  · obtain ⟨t, hstep, hinput, hrest⟩ := step_answers_sameCaller s
    rw [present_of_nil s hpending] at hinput hrest
    exact ⟨t, hstep, hinput, hrest.trans hpending⟩

end Sys2Proof.Machine

/-! SUPPORT. Which instructions write the decoded group, and how (10_state.md R23, R34). -/

namespace Sys2Proof.Machine

theorem cfgOkBit_eq_zero (f e : Bool) : cfgOkBit f e = 0#1 ↔ f = true ∨ e = true := by
  cases f <;> cases e <;> decide

/-- VALIDATE accepts a layout, or it delivers at least one error. -/
theorem execValidate_eq_next {fb eb : Int} {s t : State} (h : execValidate fb eb s = .next t) :
    (∃ cfg, t = s.driveLayout cfg) ∨
      ∃ frac exp, (frac = true ∨ exp = true) ∧ t = s.deliverError frac exp := by
  unfold execValidate at h
  rcases validate_cases fb eb with ⟨hf, hv⟩ | ⟨-, he, hv⟩ | ⟨-, -, cfg, hv, -⟩
  · rw [hv] at h
    exact .inr ⟨_, _, .inl hf, (Host.Outcome.next.inj h).symm⟩
  · rw [hv] at h
    exact .inr ⟨_, _, .inr he, (Host.Outcome.next.inj h).symm⟩
  · rw [hv] at h
    exact .inl ⟨cfg, (Host.Outcome.next.inj h).symm⟩

/-- What may write the whole decoded group of `t`: RECONSTRUCT, DECODE and the class rows, which contain it, and the
zeros of CFG_OK = 0. -/
def MayWriteDecodedGroup (i : Instr) (t : State) : Prop :=
  (∃ f cfg, i = .reconstruct f cfg) ∨ (∃ fb eb raw, i = .decode fb eb raw) ∨ (∃ cfg b, i = .infinity cfg b) ∨
    (∃ cfg b f, i = .nan cfg b f) ∨ (∃ cfg b, i = .zero cfg b) ∨ (∃ cfg b f, i = .subnormal cfg b f) ∨
    (∃ cfg b e f, i = .normal cfg b e f) ∨ t.config.cfgOk = 0#1 ∧ t.decoded = DecodedPorts.none

theorem mayWriteDecodedGroup_deliverError (i : Instr) (s : State) {frac exp : Bool}
    (h : frac = true ∨ exp = true) : MayWriteDecodedGroup i (s.deliverError frac exp) := by
  simp [MayWriteDecodedGroup, (cfgOkBit_eq_zero frac exp).mpr h]

/-- The four ways an instruction can treat the decoded group. -/
theorem exec_decoded_cases {i : Instr} {s t : State} (h : exec i s = .next t) :
    t.decoded = s.decoded ∨ (∃ f cfg, i = .classify f cfg ∧ t = s.driveClass (classOf f cfg)) ∨
      (∃ f fb, i = .fracval f fb ∧ t = s.driveFractionalValue (alignedFraction f fb)) ∨
      MayWriteDecodedGroup i t := by
  cases i with
  | validate fb eb =>
    obtain ⟨cfg, rfl⟩ | ⟨frac, exp, herr, rfl⟩ := execValidate_eq_next h
    · exact .inl rfl
    · exact .inr (.inr (.inr (mayWriteDecodedGroup_deliverError _ s herr)))
  | extract | cfgLegal => cases h; exact .inl rfl
  | classify f cfg => exact .inr (.inl ⟨f, cfg, rfl, (eq_of_ite_next_eq_next h).symm⟩)
  | fracval f fb => exact .inr (.inr (.inl ⟨f, fb, rfl, (eq_of_ite_next_eq_next h).symm⟩))
  | reconstruct | decode | infinity | nan | zero | subnormal | normal =>
    refine .inr (.inr (.inr ?_))
    simp [MayWriteDecodedGroup]
  | cfgFractionIllegal | cfgExponentIllegal | cfgBothIllegal =>
    cases eq_of_ite_next_eq_next h
    exact .inr (.inr (.inr (mayWriteDecodedGroup_deliverError _ s (by decide))))

/-- FRACVAL's bits lie below MANT[23]. -/
theorem driveFractionalValue_mant_msb (s : State) (v : BitVec 23) :
    (s.driveFractionalValue v).decoded.mant.extractLsb' 23 1 = s.decoded.mant.extractLsb' 23 1 :=
  BitVec.extractLsb'_append_eq_left

/-- Settles O60: each of the four ways to treat the decoded group keeps the ports that are not its own. -/
theorem onlyReconstructionWritesTheDecodedPorts : Obligations.OnlyReconstructionWritesTheDecodedPorts := by
  unfold Obligations.OnlyReconstructionWritesTheDecodedPorts
  intro i s t h
  obtain hkept | ⟨f, cfg, hi, rfl⟩ | ⟨f, fb, hi, rfl⟩ | hgroup := exec_decoded_cases h
  · rw [hkept]
    exact ⟨.inl ⟨rfl, rfl, rfl, rfl⟩, .inl rfl, .inl rfl⟩
  · exact ⟨.inl ⟨rfl, rfl, rfl, rfl⟩, .inr (.inl ⟨f, cfg, hi⟩), .inl rfl⟩
  · exact ⟨.inl ⟨rfl, rfl, rfl, driveFractionalValue_mant_msb s _⟩, .inl rfl, .inr (.inl ⟨f, fb, hi⟩)⟩
  · exact ⟨.inr hgroup, .inr (.inr hgroup), .inr (.inr hgroup)⟩

/-- Settles O55: `exec_sameCaller`, the arm-by-arm reading of what the caller holds. -/
theorem noInstructionWritesTheInputs : Obligations.NoInstructionWritesTheInputs := by
  unfold Obligations.NoInstructionWritesTheInputs
  exact fun _ _ _ h => exec_sameCaller h

end Sys2Proof.Machine

/-! SUPPORT. One evaluation by the decode tables, in terms of the units' operations (20_memory.md R47). -/

namespace Sys2Proof.Machine

theorem alignedFraction_zero (fb : Nat) : alignedFraction 0 fb = 0#23 := by simp [alignedFraction]

theorem packValue_zero (sign : Bit) : packValue sign 0#8 0#23 = sign ++ 0#31 := by revert sign; decide

/-- The class row that CLASSIFY's rule selects drives what RECONSTRUCT drives. -/
theorem exec_classRow {f : DecodedFields} {cfg : LayoutConfig} (h : f.inRange cfg = true) (s : State) :
    exec (classRow f cfg) s = .next (s.driveDecoded (decodedPorts f cfg)) := by
  obtain ⟨hexp, hfrac⟩ := inRange_iff.mp h
  unfold classRow decodedPorts classOf
  split_ifs with hones hfracOnes hzero hfracZero
  · rfl
  · exact if_pos ⟨Nat.pos_of_ne_zero hfracOnes, hfrac⟩
  · simp only [exec, execZero, mantPattern, hfracZero, alignedFraction_zero, valuePattern, packValue_zero]
    rfl
  · exact if_pos ⟨Nat.pos_of_ne_zero hfracZero, hfrac⟩
  · have hle : f.exponent ≤ 2 ^ cfg.exponentBits - 2 := by
      unfold LayoutConfig.allOnes at hones
      omega
    refine (if_pos ⟨⟨Nat.one_le_iff_ne_zero.mpr hzero, hle⟩, hfrac⟩).trans ?_
    simp only [mantPattern, valuePattern, BitVec.setWidth_append_eq_right]
    rfl

/-- Under a legal layout one evaluation drives the three groups in turn. -/
theorem evaluate_of_layout {s : State} {cfg : LayoutConfig}
    (h : LayoutConfig.ofWidths s.input.fb.toNat s.input.eb.toNat = some cfg) :
    s.evaluate =
      .next (((s.driveLayout cfg).driveFields (extractFields s.input.raw cfg)).driveDecoded
        (decodedPorts (extractFields s.input.raw cfg) cfg)) := by
  have hrow : decodeStimulus s.input = classRow (extractFields s.input.raw cfg) cfg := by
    rw [← decodeClass_eq_classRow, decodeStimulus, h]
  unfold State.evaluate
  rw [h, hrow]
  exact exec_classRow (extractFields_inRange _ _) _

/-- Under illegal widths one evaluation delivers the errors of both widths. -/
theorem evaluate_of_no_layout {s : State}
    (h : LayoutConfig.ofWidths s.input.fb.toNat s.input.eb.toNat = none) :
    s.evaluate =
      .next (s.deliverError (!fractionWidthLegal s.input.fb.toNat) (!exponentWidthLegal s.input.eb.toNat)) := by
  have hillegal := LayoutConfig.ofWidths_eq_none.mp h
  simp only [State.evaluate, decodeStimulus, decodeConfig, h]
  split_ifs with he hf
  · have hf := hillegal.resolve_right (by simp [he])
    simp [exec, execCfgFractionIllegal, hf, he]
  · simp [exec, execCfgExponentIllegal, hf, he]
  · simp [exec, execCfgBothIllegal, hf, he]

end Sys2Proof.Machine

/-! SUPPORT. The output function written by slices (44_decode_pipeline.md R139), port by port: each slice or selection is
what the unit of that port drives. -/

namespace Sys2Proof.Machine

variable (cfg : LayoutConfig) (c : Classification)

/-! ### The slices of RAW are EXTRACT's fields -/

theorem extractLsb'_sign (raw : Word) :
    raw.extractLsb' (cfg.fractionBits + cfg.exponentBits) 1 = (extractFields raw cfg).sign := by
  apply BitVec.eq_of_toNat_eq
  simp [extractFields]

theorem setWidth_extractLsb'_exponent (raw : Word) :
    (raw.extractLsb' cfg.fractionBits cfg.exponentBits).setWidth 8 =
      BitVec.ofNat 8 (extractFields raw cfg).exponent := by
  apply BitVec.eq_of_toNat_eq
  simp [extractFields_exponent, Nat.shiftRight_eq_div_pow]

theorem setWidth_extractLsb'_fraction (raw : Word) :
    (raw.extractLsb' 0 cfg.fractionBits).setWidth 23 = BitVec.ofNat 23 (extractFields raw cfg).fraction := by
  apply BitVec.eq_of_toNat_eq
  simp [extractFields_fraction]

/-! ### CLASS and NUM_VALID -/

theorem ofNat_eq_zero_iff_of_lt {w n : Nat} (h : n < 2 ^ w) : BitVec.ofNat w n = 0#w ↔ n = 0 := by
  rw [← BitVec.toNat_inj, BitVec.toNat_ofNat, Nat.mod_eq_of_lt h]
  simp

theorem portClass_eq_classCode {f : DecodedFields} (h : f.inRange cfg = true) :
    portClass cfg.exponentBits (BitVec.ofNat 8 f.exponent) (BitVec.ofNat 23 f.fraction) =
      classCode (classOf f cfg) := by
  obtain ⟨hexp, hfrac⟩ := inRange_iff.mp h
  have hexp8 : f.exponent < 2 ^ 8 := hexp.trans_le cfg.pow_eb_le
  have hfrac23 : f.fraction < 2 ^ 23 := hfrac.trans_le cfg.pow_fb_le
  have hones : (1 <<< cfg.exponentBits) - 1 = cfg.allOnes := by rw [Nat.one_shiftLeft, LayoutConfig.allOnes]
  simp only [portClass, classOf, hones, BitVec.toNat_ofNat, Nat.mod_eq_of_lt hexp8, ofNat_eq_zero_iff_of_lt hexp8,
    ofNat_eq_zero_iff_of_lt hfrac23, ne_eq]
  by_cases he : f.exponent = cfg.allOnes
  · by_cases hf : f.fraction = 0 <;> simp [he, hf, classCode]
  · by_cases hz : f.exponent = 0
    · rw [hz] at he
      by_cases hf : f.fraction = 0 <;> simp [hz, he, hf, classCode]
    · simp [he, hz, classCode]

theorem numValid_classCode :
    (if classCode c = 1#3 ∨ classCode c = 2#3 ∨ classCode c = 3#3 then 1#1 else 0#1) = numValidBit c := by
  cases c <;> rfl

/-! ### EFFEXP -/

theorem ofInt_sub (w : Nat) (x y : Int) : BitVec.ofInt w (x - y) = BitVec.ofInt w x - BitVec.ofInt w y := by
  rw [Int.sub_eq_add_neg, BitVec.ofInt_add, BitVec.ofInt_neg, ← BitVec.sub_eq_add_neg]

/-- BIAS holds the bias of every layout whole. -/
theorem setWidth_bias : (BitVec.ofNat 7 cfg.bias).setWidth 8 = BitVec.ofNat 8 cfg.bias := by
  unfold LayoutConfig.bias
  rcases cfg.eb_cases with h | h | h | h | h | h <;> rw [h] <;> rfl

theorem portEffExp_classCode (e : Nat) :
    portEffExp (classCode c) (BitVec.ofNat 7 cfg.bias) (BitVec.ofNat 8 e) =
      effExpPattern (effectiveExponent c e cfg) := by
  cases c with
  | infinity | nan => rfl
  | zero | subnormal | normal =>
    simp [portEffExp, classCode, effExpPattern, effectiveExponent, setWidth_bias, ofInt_sub]

/-! ### MANT -/

theorem shiftLeft_eq_alignedFraction (f fb : Nat) : BitVec.ofNat 23 f <<< (23 - fb) = alignedFraction f fb := by
  apply BitVec.eq_of_toNat_eq
  simp [alignedFraction, Nat.shiftLeft_eq]

theorem portMant_classCode (f : Nat) :
    portMant (classCode c) cfg.fractionBits (BitVec.ofNat 23 f) = mantPattern c f cfg := by
  cases c <;> simp [portMant, classCode, mantPattern, shiftLeft_eq_alignedFraction]

/-! ### VALUE -/

theorem extractLsb'_mant (m : BitVec 24) : m.extractLsb' 0 23 = m.setWidth 23 :=
  (BitVec.setWidth_eq_extractLsb' (by decide)).symm

theorem extractLsb'_shiftLeft_mant (m : BitVec 24) (k : Nat) :
    (m <<< k).extractLsb' 0 23 = BitVec.ofNat 23 (m.toNat <<< k) := by
  apply BitVec.eq_of_toNat_eq
  simp

theorem msb_mant_le (m : BitVec 24) : msb m.toNat ≤ 23 := by
  unfold msb
  rcases Nat.eq_zero_or_pos m.toNat with h | h
  · simp [h]
  · exact Nat.le_of_lt_succ ((Nat.log2_lt h.ne').mpr m.isLt)

/-- The VALUE of a Subnormal from the port EFFEXP is the one from the effective exponent: the subtraction 23 - p, of
naturals in the one and of integers in the other, never goes below 0. -/
theorem portValue_subnormal (sign : Bit) (e : Int) (m : BitVec 24) :
    portValue (classCode .subnormal) cfg.exponentBits sign (BitVec.ofInt 8 e) m = subnormalValue sign e m cfg := by
  by_cases h8 : cfg.exponentBits = 8
  · simp [portValue, classCode, subnormalValue, h8, packValue, extractLsb'_mant]
  · have hshift : BitVec.ofNat 8 (23 - msb m.toNat) = BitVec.ofInt 8 (23 - (msb m.toNat : Int)) := by
      rw [← BitVec.ofInt_natCast, Nat.cast_sub (msb_mant_le m), Nat.cast_ofNat]
    simp only [portValue, classCode, subnormalValue, if_neg h8, packValue, extractLsb'_shiftLeft_mant, ofInt_sub,
      BitVec.ofInt_add, ← hshift]
    rfl

theorem portValue_classCode (sign : Bit) (e : Nat) (m : BitVec 24) :
    portValue (classCode c) cfg.exponentBits sign (effExpPattern (effectiveExponent c e cfg)) m =
      valuePattern c sign (effectiveExponent c e cfg) m cfg := by
  cases c with
  | infinity | nan | zero => rfl
  | subnormal => exact portValue_subnormal cfg sign _ m
  | normal =>
    simp [portValue, classCode, valuePattern, effectiveExponent, effExpPattern, packValue, extractLsb'_mant,
      BitVec.ofInt_add]

/-! ### The whole function, by layout -/

theorem legalWidths_eq_false_iff (st : Stimulus) :
    legalWidths st = false ↔ LayoutConfig.ofWidths st.fb.toNat st.eb.toNat = none := by
  rw [LayoutConfig.ofWidths_eq_none, legalWidths, Bool.and_eq_false_iff]

theorem portFunction_of_layout {st : Stimulus} {cfg : LayoutConfig}
    (h : LayoutConfig.ofWidths st.fb.toNat st.eb.toNat = some cfg) :
    portFunction st =
      { config :=
          { cfgOk := 1#1, err := 0#2, totalBits := BitVec.ofNat 6 cfg.totalBits, bias := BitVec.ofNat 7 cfg.bias }
        fields :=
          { sign := (extractFields st.raw cfg).sign
            exponent := BitVec.ofNat 8 (extractFields st.raw cfg).exponent
            fraction := BitVec.ofNat 23 (extractFields st.raw cfg).fraction }
        decoded := decodedPorts (extractFields st.raw cfg) cfg } := by
  obtain ⟨hfb, heb⟩ := LayoutConfig.ofWidths_eq_some.mp h
  have hlegal : legalWidths st = true := by simpa [h] using (legalWidths_eq_false_iff st).not
  have hbias : (1 <<< (cfg.exponentBits - 1)) - 1 = cfg.bias := by rw [Nat.one_shiftLeft, LayoutConfig.bias]
  simp only [portFunction, hlegal, if_true]
  rw [← hfb, ← heb]
  simp only [hbias, extractLsb'_sign, setWidth_extractLsb'_exponent, setWidth_extractLsb'_fraction,
    portClass_eq_classCode cfg (extractFields_inRange st.raw cfg), numValid_classCode, portEffExp_classCode,
    portMant_classCode, portValue_classCode]
  rfl

theorem portFunction_of_no_layout {st : Stimulus}
    (h : LayoutConfig.ofWidths st.fb.toNat st.eb.toNat = none) :
    portFunction st =
      { config :=
          { cfgOk := 0#1, err := errCode (!fractionWidthLegal st.fb.toNat) (!exponentWidthLegal st.eb.toNat)
            totalBits := 0#6, bias := 0#7 }
        fields := FieldPorts.none, decoded := DecodedPorts.none } := by
  simp only [portFunction, (legalWidths_eq_false_iff st).mpr h]
  rfl

end Sys2Proof.Machine

/-! SUPPORT. After a step every output is the function of the triple on the input ports (10_state.md R20,
44_decode_pipeline.md R139). -/

namespace Sys2Proof.Machine

theorem driveUnits_consistent {s : State} {cfg : LayoutConfig}
    (h : LayoutConfig.ofWidths s.input.fb.toNat s.input.eb.toNat = some cfg) :
    (((s.driveLayout cfg).driveFields (extractFields s.input.raw cfg)).driveDecoded
      (decodedPorts (extractFields s.input.raw cfg) cfg)).consistent :=
  (portFunction_of_layout h).symm

theorem deliverError_consistent {s : State}
    (h : LayoutConfig.ofWidths s.input.fb.toNat s.input.eb.toNat = none) :
    (s.deliverError (!fractionWidthLegal s.input.fb.toNat)
      (!exponentWidthLegal s.input.eb.toNat)).consistent := by
  have hok : cfgOkBit (!fractionWidthLegal s.input.fb.toNat) (!exponentWidthLegal s.input.eb.toNat) = 0#1 :=
    (cfgOkBit_eq_zero _ _).mpr (by simpa using LayoutConfig.ofWidths_eq_none.mp h)
  simp only [State.consistent, State.outputs, deliverError_input, deliverError_config, hok,
    portFunction_of_no_layout h]
  rfl

theorem evaluate_consistent {s t : State} (h : s.evaluate = .next t) : t.consistent := by
  cases hw : LayoutConfig.ofWidths s.input.fb.toNat s.input.eb.toNat with
  | some cfg =>
    rw [evaluate_of_layout hw] at h
    cases h
    exact driveUnits_consistent hw
  | none =>
    rw [evaluate_of_no_layout hw] at h
    cases h
    exact deliverError_consistent hw

/-- Settles O50: a step is one evaluation of the triple presented, and an evaluation drives the output function of the
triple it reads, whatever the outputs were. -/
theorem stepKeepsOutputsConsistent : Obligations.StepKeepsOutputsConsistent := by
  unfold Obligations.StepKeepsOutputsConsistent
  exact fun _ _ h => evaluate_consistent h

end Sys2Proof.Machine

/-! SUPPORT. One step as the output function of the triple presented, and as the rows it runs (20_memory.md R44, R46,
R47; 44_decode_pipeline.md R139, R140). -/

namespace Sys2Proof.Machine

/-- The state with its twelve output ports at the given values. -/
def State.showing (s : State) (o : Outputs) : State :=
  { s with config := o.config, fields := o.fields, decoded := o.decoded }

@[simp] theorem showing_input (s : State) (o : Outputs) : (s.showing o).input = s.input := rfl
@[simp] theorem showing_pending (s : State) (o : Outputs) : (s.showing o).pending = s.pending := rfl
@[simp] theorem showing_outputs (s : State) (o : Outputs) : (s.showing o).outputs = o := rfl
@[simp] theorem showing_showing (s : State) (o o' : Outputs) : (s.showing o).showing o' = s.showing o' := rfl

/-- The caller's fields and the outputs are the whole state. -/
theorem eq_showing_outputs {s t : State} (h : s.SameCaller t) : t = s.showing t.outputs := by
  obtain ⟨hinput, hpending⟩ := h
  cases t
  cases hinput
  cases hpending
  rfl

/-- A step presents a triple and drives the output function of it; nothing else changes. -/
theorem step_eq_showing (s : State) : step s = .next (s.present.showing (portFunction s.present.input)) := by
  obtain ⟨t, hstep, hcaller⟩ := step_answers_sameCaller s
  have houtputs : t.outputs = portFunction s.present.input := hcaller.1 ▸ evaluate_consistent hstep
  rw [hstep, ← houtputs, ← eq_showing_outputs hcaller]

/-- Settles O51: the outputs `step_eq_showing` names are a function of the triple presented. -/
theorem outputsDependOnTheTripleAlone : Obligations.OutputsDependOnTheTripleAlone := by
  unfold Obligations.OutputsDependOnTheTripleAlone
  intro s s' htriple
  refine ⟨_, _, step_eq_showing s, step_eq_showing s', ?_⟩
  rw [showing_outputs, showing_outputs, htriple]

/-- Settles O52: with nothing pending the first step and the second drive the outputs of one and the same triple. -/
theorem evaluationIsIdempotent : Obligations.EvaluationIsIdempotent := by
  unfold Obligations.EvaluationIsIdempotent
  intro s t hpending hstep
  rw [step_eq_showing, present_of_nil s hpending] at hstep
  cases hstep
  have hheld : (s.showing (portFunction s.input)).present = s.showing (portFunction s.input) :=
    present_of_nil _ hpending
  rw [step_eq_showing, hheld, showing_input, showing_showing]

/-- Settles O46: a step evaluates the triple presented, and an evaluation selects its rows by whether the widths give a
layout. -/
theorem stepRunsTheDecodedInstruction : Obligations.StepRunsTheDecodedInstruction := by
  unfold Obligations.StepRunsTheDecodedInstruction
  intro s
  constructor
  · intro cfg hlegal
    rw [step, State.evaluate, hlegal]
  · intro hillegal
    rw [step, State.evaluate, hillegal]

end Sys2Proof.Machine

/-! SUPPORT. A pattern is its three fields in place, and the encoder puts them there (30_encoding.md R58;
41_extract.md R95). -/

namespace Sys2Proof.Machine

section
variable (cfg : LayoutConfig) (raw : Word)

/-! ### PATTERN_MASK is the union of the field masks -/

theorem toNat_patternMask : cfg.patternMask.toNat = 2 ^ cfg.totalBits - 1 := by
  have hle : 2 ^ cfg.totalBits ≤ 2 ^ 32 := Nat.pow_le_pow_right (by decide) cfg.totalBits_le
  have hpos := Nat.two_pow_pos cfg.totalBits
  rw [LayoutConfig.patternMask, BitVec.toNat_ofNat, Nat.mod_eq_of_lt (by omega)]

/-- A run of n ones over a run of k ones is a run of k + n ones. -/
theorem ones_or_ones (n k : Nat) : (2 ^ n - 1) * 2 ^ k ||| (2 ^ k - 1) = 2 ^ (k + n) - 1 := by
  have hk := Nat.two_pow_pos k
  have hle := Nat.le_mul_of_pos_left (2 ^ k) (Nat.two_pow_pos n)
  rw [← Nat.shiftLeft_eq, ← Nat.shiftLeft_add_eq_or_of_lt (Nat.sub_one_lt hk.ne'), Nat.shiftLeft_eq, Nat.sub_mul,
    Nat.pow_add, Nat.mul_comm (2 ^ k)]
  omega

/-- SIGN_MASK as a run of one bit, the form `LayoutConfig.and_mask_eq` reads. -/
theorem toNat_signMask_eq_mask :
    cfg.signMask.toNat = (2 ^ 1 - 1) * 2 ^ (cfg.fractionBits + cfg.exponentBits) := by
  rw [LayoutConfig.toNat_signMask]
  exact (Nat.one_mul _).symm

theorem patternMask_eq_or : cfg.patternMask = cfg.signMask ||| cfg.expMask ||| cfg.fracMask := by
  apply BitVec.eq_of_toNat_eq
  rw [BitVec.or_assoc, BitVec.toNat_or, BitVec.toNat_or, toNat_signMask_eq_mask, LayoutConfig.toNat_expMask,
    LayoutConfig.toNat_fracMask, ones_or_ones, ones_or_ones, toNat_patternMask, LayoutConfig.totalBits]

/-! ### Reassembling the extracted fields -/

theorem toNat_and_signMask :
    (raw &&& cfg.signMask).toNat =
      (extractFields raw cfg).sign.toNat <<< (cfg.fractionBits + cfg.exponentBits) := by
  rw [BitVec.toNat_and, toNat_signMask_eq_mask, LayoutConfig.and_mask_eq, Nat.shiftLeft_eq]
  simp [extractFields, Nat.shiftRight_eq_div_pow]

/-- Each field in its place is RAW under the field's mask, so together they are RAW under PATTERN_MASK. -/
theorem assemble_extractFields :
    cfg.assemble (extractFields raw cfg).sign (extractFields raw cfg).exponent (extractFields raw cfg).fraction =
      raw &&& cfg.patternMask := by
  rw [LayoutConfig.assemble, ← toNat_and_signMask, Nat.shiftLeft_eq, ← toNat_and_expMask_eq_mul,
    extractFields_fraction, ← LayoutConfig.toNat_and_fracMask, BitVec.ofNat_toNat, BitVec.ofNat_toNat,
    BitVec.ofNat_toNat, patternMask_eq_or, BitVec.and_or_distrib_left, BitVec.and_or_distrib_left]
  simp only [BitVec.setWidth_eq]

/-! ### The decoder on a layout's own triple -/

theorem ofWidths_stimulus :
    LayoutConfig.ofWidths (cfg.stimulus raw).fb.toNat (cfg.stimulus raw).eb.toNat = some cfg := by
  have hfb := cfg.fb_le
  have heb := cfg.eb_le
  rw [LayoutConfig.ofWidths_eq_some]
  simp only [LayoutConfig.stimulus, BitVec.toNat_ofNat]
  omega

theorem decodeStimulus_stimulus : decodeStimulus (cfg.stimulus raw) = classRow (extractFields raw cfg) cfg := by
  rw [decodeStimulus, ofWidths_stimulus]
  exact decodeClass_eq_classRow cfg raw

end

/-! ### The encoder on decoded rows -/

/-- A class row stands for the pattern with its fields: those the row does not carry are fixed by its class. -/
theorem triple_classRow (f : DecodedFields) (cfg : LayoutConfig) :
    (classRow f cfg).triple = some (cfg.stimulus (cfg.assemble f.sign f.exponent f.fraction)) := by
  unfold classRow classOf
  split_ifs with hones hfracOnes hzero hfracZero
  · rw [hones, hfracOnes, Instr.triple]
  · rw [hones, Instr.triple]
  · rw [hzero, hfracZero, Instr.triple]
  · rw [hzero, Instr.triple]
  · rw [Instr.triple]

theorem triple_decodeStimulus_of_no_layout {st : Stimulus}
    (h : LayoutConfig.ofWidths st.fb.toNat st.eb.toNat = none) :
    (decodeStimulus st).triple = some { st with raw := 0#32 } := by
  simp only [decodeStimulus, decodeConfig, h]
  split_ifs <;> rfl

/-- A decoded row is well-formed, so encoding it gives its triple. -/
theorem encode_decodeStimulus (st : Stimulus) : encode (decodeStimulus st) = (decodeStimulus st).triple :=
  if_pos (decodeStimulus_wellFormed st)

/-- Settles O58: the decoded class row carries the extracted fields, and their pattern is RAW without the ignored bits;
an illegal-configuration row carries its widths alone. -/
theorem encodeOfDecodeIsThePattern : Obligations.EncodeOfDecodeIsThePattern := by
  unfold Obligations.EncodeOfDecodeIsThePattern
  constructor
  · intro cfg raw
    rw [encode_decodeStimulus, decodeStimulus_stimulus, triple_classRow, assemble_extractFields]
  · intro st hillegal
    rw [encode_decodeStimulus, triple_decodeStimulus_of_no_layout hillegal]

end Sys2Proof.Machine

/-! SUPPORT. The pattern with given fields as a number, read back field by field, and the encoder's round trip
(30_encoding.md R55, R70; 41_extract.md R91 to R93, R95). -/

namespace Sys2Proof.Machine

section
variable (cfg : LayoutConfig) (sign : Bit)

/-! ### A pattern as a number -/

theorem mul_add_lt_mul {a b p q : Nat} (ha : a < p) (hb : b < q) : a * q + b < p * q :=
  calc
    a * q + b < a * q + q := Nat.add_lt_add_left hb _
    _ = (a + 1) * q := (Nat.succ_mul a q).symm
    _ ≤ p * q := Nat.mul_le_mul_right q ha

theorem place_div_mod {p b : Nat} (a : Nat) (hb : b < p) : (a * p + b) / p = a ∧ (a * p + b) % p = b :=
  (Nat.div_mod_unique (Nat.zero_lt_of_lt hb)).mpr ⟨by ring, hb⟩

/-- Each field lies below the place of the next, so `|` adds the places up. -/
theorem toNat_assemble {e f : Nat} (he : e < 2 ^ cfg.exponentBits) (hf : f < 2 ^ cfg.fractionBits) :
    (cfg.assemble sign e f).toNat = (sign.toNat * 2 ^ cfg.exponentBits + e) * 2 ^ cfg.fractionBits + f := by
  have hplace : e * 2 ^ cfg.fractionBits + f < 2 ^ (cfg.fractionBits + cfg.exponentBits) := by
    rw [Nat.pow_add, Nat.mul_comm (2 ^ cfg.fractionBits)]
    exact mul_add_lt_mul he hf
  have hplaces : sign.toNat <<< (cfg.fractionBits + cfg.exponentBits) ||| e <<< cfg.fractionBits ||| f =
      sign.toNat * 2 ^ (cfg.fractionBits + cfg.exponentBits) + (e * 2 ^ cfg.fractionBits + f) := by
    rw [Nat.or_assoc, ← Nat.shiftLeft_add_eq_or_of_lt hf, Nat.shiftLeft_eq e,
      ← Nat.shiftLeft_add_eq_or_of_lt hplace, Nat.shiftLeft_eq]
  have hfits : sign.toNat * 2 ^ (cfg.fractionBits + cfg.exponentBits) + (e * 2 ^ cfg.fractionBits + f) < 2 ^ 32 :=
    (mul_add_lt_mul sign.isLt hplace).trans_le (Nat.mul_le_mul_left 2 cfg.pow_sum_le)
  simp only [LayoutConfig.assemble, BitVec.toNat_or, BitVec.toNat_ofNat, ← Nat.or_mod_two_pow]
  rw [hplaces, Nat.mod_eq_of_lt hfits]
  ring

/-! ### EXTRACT reads the fields back -/

theorem extractFields_sign_toNat (raw : Word) :
    (extractFields raw cfg).sign.toNat = raw.toNat / 2 ^ cfg.fractionBits / 2 ^ cfg.exponentBits % 2 := by
  rw [Nat.div_div_eq_div_mul, ← Nat.pow_add]
  simp [extractFields, Nat.shiftRight_eq_div_pow]

theorem eq_of_fields {f g : DecodedFields} (hs : f.sign.toNat = g.sign.toNat) (he : f.exponent = g.exponent)
    (hf : f.fraction = g.fraction) : f = g := by
  cases f
  cases g
  cases BitVec.eq_of_toNat_eq hs
  cases he
  cases hf
  rfl

theorem extractFields_assemble {e f : Nat} (he : e < 2 ^ cfg.exponentBits) (hf : f < 2 ^ cfg.fractionBits) :
    extractFields (cfg.assemble sign e f) cfg = { sign := sign, exponent := e, fraction := f } := by
  obtain ⟨hdivf, hmodf⟩ := place_div_mod (sign.toNat * 2 ^ cfg.exponentBits + e) hf
  rw [← toNat_assemble cfg sign he hf] at hdivf hmodf
  obtain ⟨hdive, hmode⟩ := place_div_mod sign.toNat he
  apply eq_of_fields
  · rw [extractFields_sign_toNat, hdivf, hdive, Nat.mod_eq_of_lt sign.isLt]
  · rw [extractFields_exponent, hdivf, hmode]
  · rw [extractFields_fraction, hmodf]

end

/-! ### The decoder on encoded rows -/

theorem extractFields_assemble_fields {f : DecodedFields} {cfg : LayoutConfig} (h : f.inRange cfg = true) :
    extractFields (cfg.assemble f.sign f.exponent f.fraction) cfg = f := by
  obtain ⟨he, hf⟩ := inRange_iff.mp h
  exact extractFields_assemble cfg f.sign he hf

theorem encode_classRow {f : DecodedFields} {cfg : LayoutConfig} (h : f.inRange cfg = true) :
    encode (classRow f cfg) = some (cfg.stimulus (cfg.assemble f.sign f.exponent f.fraction)) := by
  rw [encode, if_pos (classRow_wellFormed h), triple_classRow]

theorem decodeStimulus_of_encode_classRow {f : DecodedFields} {cfg : LayoutConfig} {st : Stimulus}
    (h : f.inRange cfg = true) (henc : encode (classRow f cfg) = some st) :
    decodeStimulus st = classRow f cfg := by
  rw [encode_classRow h] at henc
  cases henc
  rw [decodeStimulus_stimulus, extractFields_assemble_fields h]


section
variable (cfg : LayoutConfig) (sign : Bit)

theorem infinity_eq_classRow :
    Instr.infinity cfg sign = classRow { sign := sign, exponent := cfg.allOnes, fraction := 0 } cfg := by
  simp [classRow, classOf]

theorem nan_eq_classRow {f : Nat} (hf : 0 < f) :
    Instr.nan cfg sign f = classRow { sign := sign, exponent := cfg.allOnes, fraction := f } cfg := by
  simp [classRow, classOf, hf.ne']

theorem allOnes_ne_zero : cfg.allOnes ≠ 0 :=
  (Nat.lt_of_lt_of_le (by decide) cfg.seven_le_allOnes).ne'

theorem zero_eq_classRow :
    Instr.zero cfg sign = classRow { sign := sign, exponent := 0, fraction := 0 } cfg := by
  simp [classRow, classOf, (allOnes_ne_zero cfg).symm]

theorem subnormal_eq_classRow {f : Nat} (hf : 0 < f) :
    Instr.subnormal cfg sign f = classRow { sign := sign, exponent := 0, fraction := f } cfg := by
  simp [classRow, classOf, (allOnes_ne_zero cfg).symm, hf.ne']

theorem normal_eq_classRow {e f : Nat} (hzero : e ≠ 0) (hones : e ≠ cfg.allOnes) :
    Instr.normal cfg sign e f = classRow { sign := sign, exponent := e, fraction := f } cfg := by
  simp [classRow, classOf, hzero, hones]

end

section
variable {fb eb : Byte}

theorem decodeConfig_of_cfgFractionIllegal (h : (Instr.cfgFractionIllegal fb eb).wellFormed = true) :
    LayoutConfig.ofWidths fb.toNat eb.toNat = none ∧ decodeConfig fb eb = .cfgFractionIllegal fb eb := by
  obtain ⟨hf, he⟩ : fractionWidthLegal fb.toNat = false ∧ exponentWidthLegal eb.toNat = true := by
    simpa [Instr.wellFormed] using h
  have hnone : LayoutConfig.ofWidths fb.toNat eb.toNat = none :=
    LayoutConfig.ofWidths_eq_none.mpr (.inl hf)
  exact ⟨hnone, by simp [decodeConfig, hnone, he]⟩

theorem decodeConfig_of_cfgExponentIllegal (h : (Instr.cfgExponentIllegal fb eb).wellFormed = true) :
    LayoutConfig.ofWidths fb.toNat eb.toNat = none ∧ decodeConfig fb eb = .cfgExponentIllegal fb eb := by
  obtain ⟨hf, he⟩ : fractionWidthLegal fb.toNat = true ∧ exponentWidthLegal eb.toNat = false := by
    simpa [Instr.wellFormed] using h
  have hnone : LayoutConfig.ofWidths fb.toNat eb.toNat = none :=
    LayoutConfig.ofWidths_eq_none.mpr (.inr he)
  exact ⟨hnone, by simp [decodeConfig, hnone, he, hf]⟩

theorem decodeConfig_of_cfgBothIllegal (h : (Instr.cfgBothIllegal fb eb).wellFormed = true) :
    LayoutConfig.ofWidths fb.toNat eb.toNat = none ∧ decodeConfig fb eb = .cfgBothIllegal fb eb := by
  obtain ⟨hf, he⟩ : fractionWidthLegal fb.toNat = false ∧ exponentWidthLegal eb.toNat = false := by
    simpa [Instr.wellFormed] using h
  have hnone : LayoutConfig.ofWidths fb.toNat eb.toNat = none :=
    LayoutConfig.ofWidths_eq_none.mpr (.inr he)
  exact ⟨hnone, by simp [decodeConfig, hnone, he, hf]⟩

theorem decodeStimulus_of_no_layout {st : Stimulus} (h : LayoutConfig.ofWidths st.fb.toNat st.eb.toNat = none) :
    decodeStimulus st = decodeConfig st.fb st.eb := by
  rw [decodeStimulus, h]

end

theorem encode_eq_some_iff {i : Instr} {st : Stimulus} :
    encode i = some st ↔ i.wellFormed = true ∧ i.triple = some st := by
  simp [encode]

/-- An instruction with a triple is a class row of fields in range, or an illegal-configuration row that its own widths
select. -/
theorem encode_eq_some_cases {i : Instr} {st : Stimulus} (h : encode i = some st) :
    (∃ f cfg, f.inRange cfg = true ∧ i = classRow f cfg) ∨
      LayoutConfig.ofWidths st.fb.toNat st.eb.toNat = none ∧ decodeConfig st.fb st.eb = i := by
  obtain ⟨hwf, htriple⟩ := encode_eq_some_iff.mp h
  cases i with
  | validate | extract | fracval | classify | reconstruct | decode | cfgLegal => cases htriple
  | infinity cfg sign =>
    exact .inl ⟨_, cfg, inRange_iff.mpr ⟨cfg.allOnes_lt, Nat.two_pow_pos _⟩, infinity_eq_classRow cfg sign⟩
  | nan cfg sign f =>
    obtain ⟨hpos, hlt⟩ : 0 < f ∧ f < 2 ^ cfg.fractionBits := by simpa [Instr.wellFormed] using hwf
    exact .inl ⟨_, cfg, inRange_iff.mpr ⟨cfg.allOnes_lt, hlt⟩, nan_eq_classRow cfg sign hpos⟩
  | zero cfg sign =>
    exact .inl ⟨_, cfg, inRange_iff.mpr ⟨Nat.two_pow_pos _, Nat.two_pow_pos _⟩, zero_eq_classRow cfg sign⟩
  | subnormal cfg sign f =>
    obtain ⟨hpos, hlt⟩ : 0 < f ∧ f < 2 ^ cfg.fractionBits := by simpa [Instr.wellFormed] using hwf
    exact .inl ⟨_, cfg, inRange_iff.mpr ⟨Nat.two_pow_pos _, hlt⟩, subnormal_eq_classRow cfg sign hpos⟩
  | normal cfg sign e f =>
    obtain ⟨⟨hpos, hle⟩, hlt⟩ : (1 ≤ e ∧ e ≤ 2 ^ cfg.exponentBits - 2) ∧ f < 2 ^ cfg.fractionBits := by
      simpa [Instr.wellFormed] using hwf
    have hones : e < cfg.allOnes := by unfold LayoutConfig.allOnes; omega
    exact .inl ⟨_, cfg, inRange_iff.mpr ⟨hones.trans cfg.allOnes_lt, hlt⟩,
      normal_eq_classRow cfg sign (Nat.one_le_iff_ne_zero.mp hpos) hones.ne⟩
  | cfgFractionIllegal fb eb => cases htriple; exact .inr (decodeConfig_of_cfgFractionIllegal hwf)
  | cfgExponentIllegal fb eb => cases htriple; exact .inr (decodeConfig_of_cfgExponentIllegal hwf)
  | cfgBothIllegal fb eb => cases htriple; exact .inr (decodeConfig_of_cfgBothIllegal hwf)

theorem decodeStimulus_of_encode {i : Instr} {st : Stimulus} (h : encode i = some st) : decodeStimulus st = i := by
  obtain ⟨f, cfg, hrange, rfl⟩ | ⟨hnone, hconfig⟩ := encode_eq_some_cases h
  · exact decodeStimulus_of_encode_classRow hrange h
  · rw [decodeStimulus_of_no_layout hnone, hconfig]

theorem decodeConfig_of_encodeConfig {i : Instr} {fb eb : Byte} (h : encodeConfig i = some (fb, eb)) :
    decodeConfig fb eb = i := by
  cases hwf : i.wellFormed with
  | false => simp [encodeConfig, hwf] at h
  | true =>
    simp only [encodeConfig, hwf, if_true] at h
    cases i with
    | validate | extract | fracval | classify | reconstruct | decode | infinity | nan | zero | subnormal | normal =>
      cases h
    | cfgLegal cfg =>
      cases h
      have hlayout := ofWidths_stimulus cfg 0#32
      simp only [LayoutConfig.stimulus] at hlayout
      rw [decodeConfig, hlayout]
    | cfgFractionIllegal => cases h; exact (decodeConfig_of_cfgFractionIllegal hwf).2
    | cfgExponentIllegal => cases h; exact (decodeConfig_of_cfgExponentIllegal hwf).2
    | cfgBothIllegal => cases h; exact (decodeConfig_of_cfgBothIllegal hwf).2

/-- Settles O57: a row with a triple is a class row, whose pattern holds its fields, or an illegal-configuration row
that its own widths select. -/
theorem decodeOfEncodeIsTheRow : Obligations.DecodeOfEncodeIsTheRow := by
  unfold Obligations.DecodeOfEncodeIsTheRow
  refine ⟨fun _ _ h => decodeStimulus_of_encode h, fun _ _ _ h => decodeConfig_of_encodeConfig h, fun i hwf => ?_⟩
  have hencode : encode i = i.triple := if_pos hwf
  cases i with
  | infinity | nan | zero | subnormal | normal | cfgFractionIllegal | cfgExponentIllegal | cfgBothIllegal =>
    exact .inl ⟨_, hencode⟩
  | cfgLegal => exact .inr (.inl ⟨_, rfl⟩)
  | validate | extract | fracval | classify | reconstruct | decode => simp

end Sys2Proof.Machine

/-! SUPPORT. The masks' values and the decode table's rows, in the terms of the rules (30_encoding.md R58, R61, R63,
R70). -/

namespace Sys2Proof.Machine

/-- Settles O14: under a mask each field is the one EXTRACT gives, and the union of the masks is a run of ones. -/
theorem masksTakeOutTheSameFields : Obligations.MasksTakeOutTheSameFields := by
  unfold Obligations.MasksTakeOutTheSameFields
  intro raw cfg
  have hunion : cfg.patternMask = cfg.fracMask ||| cfg.expMask ||| cfg.signMask := by
    rw [patternMask_eq_or, BitVec.or_comm, BitVec.or_comm cfg.signMask, BitVec.or_assoc]
  simp only [Nat.one_shiftLeft, Nat.shiftLeft_eq (2 ^ cfg.exponentBits - 1)]
  exact ⟨cfg.toNat_fracMask, cfg.toNat_expMask, cfg.toNat_signMask, toNat_patternMask cfg, maskedSign_eq cfg raw,
    maskedExponent_eq cfg raw, maskedFraction_eq cfg raw, hunion⟩

/-- Settles O22: `classRow` is the selection the statement writes out. -/
theorem firstMatchingRowIsTheClass : Obligations.FirstMatchingRowIsTheClass := by
  unfold Obligations.FirstMatchingRowIsTheClass
  exact decodeClass_eq_classRow

/-- Settles O32: a class row's guard fails on such operands, and where a configuration row's guard holds, the row is the
one (FB, EB) selects. -/
theorem rowsRefuseOperandsTheyDoNotSelect : Obligations.RowsRefuseOperandsTheyDoNotSelect := by
  unfold Obligations.RowsRefuseOperandsTheyDoNotSelect
  refine ⟨fun cfg sign f s h => ?_, fun cfg sign e f s h => ?_, fun fb eb s =>
    ⟨fun h => ?_, fun h => ?_, fun h => ?_⟩⟩
  · have hguard : ¬ (0 < f ∧ f < 2 ^ cfg.fractionBits) := by omega
    exact ⟨if_neg hguard, if_neg hguard⟩
  · have hguard : ¬ ((1 ≤ e ∧ e ≤ 2 ^ cfg.exponentBits - 2) ∧ f < 2 ^ cfg.fractionBits) := by omega
    exact if_neg hguard
  · exact if_neg fun hwf => h (decodeConfig_of_cfgFractionIllegal hwf).2
  · exact if_neg fun hwf => h (decodeConfig_of_cfgExponentIllegal hwf).2
  · exact if_neg fun hwf => h (decodeConfig_of_cfgBothIllegal hwf).2

/-! ### Words of the table -/

theorem withFetchWord_of_tableStimulus {nbits w : Nat} {st : Stimulus} (h : tableStimulus nbits w = some st)
    (s : State) : s.withFetchWord nbits w = { s with pending := st :: s.pending } := by
  rw [State.withFetchWord, h]

/-- Settles O47: the word's triple is put at the head of the list, where presenting takes it. -/
theorem fetchWordIsPresentedNext : Obligations.FetchWordIsPresentedNext := by
  unfold Obligations.FetchWordIsPresentedNext
  intro s nbits w i h
  obtain ⟨st, hword, hrow⟩ := Option.map_eq_some_iff.mp h
  exact ⟨st, hrow, by rw [withFetchWord_of_tableStimulus hword, present_cons]⟩

/-- Settles O59: the decoder run on each word. -/
theorem tableWordsDecodeToTheirRows : Obligations.TableWordsDecodeToTheirRows := by
  unfold Obligations.TableWordsDecodeToTheirRows
  refine ⟨⟨4, 3, by decide, by decide⟩, rfl, rfl, ?_⟩
  decide

end Sys2Proof.Machine

/-! SUPPORT. The output codes an evaluation can produce, and ERR beside VALIDATE's result (30_encoding.md R66, R67,
R73). -/

namespace Sys2Proof.Machine

/-! ### ERR and the result of VALIDATE -/

section
variable {fb eb : Int}

theorem validate_eq_ok_iff : (∃ cfg, validate fb eb = .ok cfg) ↔ errFrac fb = false ∧ errExp eb = false := by
  obtain ⟨hf, hv⟩ | ⟨hf, he, hv⟩ | ⟨hf, he, cfg, hv, -⟩ := validate_cases fb eb <;> simp [*]

theorem validate_eq_fractionOutOfRange_iff : validate fb eb = .error .fractionOutOfRange ↔ errFrac fb = true := by
  obtain ⟨hf, hv⟩ | ⟨hf, he, hv⟩ | ⟨hf, he, cfg, hv, -⟩ := validate_cases fb eb <;> simp [*]

theorem validate_eq_exponentOutOfRange_iff :
    validate fb eb = .error .exponentOutOfRange ↔ errFrac fb = false ∧ errExp eb = true := by
  obtain ⟨hf, hv⟩ | ⟨hf, he, hv⟩ | ⟨hf, he, cfg, hv, -⟩ := validate_cases fb eb <;> simp [*]

/-- VALIDATE shows its two error conditions on ERR and CFG_OK, whether it succeeds or fails. -/
theorem execValidate_status (fb eb : Int) (s : State) :
    ∃ t, execValidate fb eb s = .next t ∧ t.config.err = errCode (errFrac fb) (errExp eb) ∧
      t.config.cfgOk = cfgOkBit (errFrac fb) (errExp eb) := by
  unfold execValidate
  cases hv : validate fb eb with
  | error e => exact ⟨_, rfl, rfl, rfl⟩
  | ok cfg =>
    obtain ⟨hf, he⟩ := validate_eq_ok_iff.mp ⟨cfg, hv⟩
    rw [hf, he]
    exact ⟨_, rfl, rfl, rfl⟩

end

theorem errCode_lsb (f e : Bool) : (errCode f e).getLsbD 0 = f := by
  cases f <;> cases e <;> rfl

theorem errCode_eq_two (f e : Bool) : errCode f e = 2#2 ↔ f = false ∧ e = true := by
  cases f <;> cases e <;> decide

/-- Settles O8: ERR, CFG_OK and VALIDATE's result are each read off the two error conditions. -/
theorem errorCodeMatchesTheReturnedError : Obligations.ErrorCodeMatchesTheReturnedError := by
  unfold Obligations.ErrorCodeMatchesTheReturnedError
  intro fb eb s
  obtain ⟨t, hexec, herr, hok⟩ := execValidate_status fb eb s
  refine ⟨t, hexec, ?_⟩
  rw [herr, hok, errCode_eq_zero, cfgOkBit_eq_one, validate_eq_ok_iff, errCode_lsb, validate_eq_fractionOutOfRange_iff,
    errCode_eq_two, validate_eq_exponentOutOfRange_iff]
  exact ⟨.rfl, .rfl, .rfl, .rfl⟩

/-! ### The codes a step produces -/

theorem extractLsb'_top_append (b : Bit) (v : BitVec 23) : (b ++ v : BitVec 24).extractLsb' 23 1 = b :=
  BitVec.extractLsb'_append_eq_left

/-- MANT[23] is the implicit bit. -/
theorem mantPattern_msb_iff (c : Classification) (f : Nat) (cfg : LayoutConfig) :
    (mantPattern c f cfg).extractLsb' 23 1 = 1#1 ↔ c = .normal := by
  cases c with
  | infinity | nan => simp [mantPattern]
  | zero | subnormal | normal => rw [mantPattern, extractLsb'_top_append]; decide

theorem classCode_legal (c : Classification) : classCode c ≠ 6#3 ∧ classCode c ≠ 7#3 := by
  cases c <;> decide

theorem classCode_of_numValidBit {c : Classification} (h : numValidBit c = 1#1) :
    classCode c ≠ 0#3 ∧ classCode c ≠ 4#3 ∧ classCode c ≠ 5#3 := by
  cases c with
  | zero | subnormal | normal => decide
  | infinity | nan => cases h

theorem portFunction_codesLegal (st : Stimulus) : (portFunction st).codesLegal := by
  cases hw : LayoutConfig.ofWidths st.fb.toNat st.eb.toNat with
  | some cfg =>
    rw [portFunction_of_layout hw]
    exact ⟨classCode_legal _, by simp, classCode_of_numValidBit,
      fun hmsb => congrArg classCode ((mantPattern_msb_iff _ _ cfg).mp hmsb)⟩
  | none =>
    have hok : cfgOkBit (!fractionWidthLegal st.fb.toNat) (!exponentWidthLegal st.eb.toNat) = 0#1 :=
      (cfgOkBit_eq_zero _ _).mpr (by simpa using LayoutConfig.ofWidths_eq_none.mp hw)
    have hstatus : 0#1 = 1#1 ↔
        errCode (!fractionWidthLegal st.fb.toNat) (!exponentWidthLegal st.eb.toNat) = 0#2 := by
      rw [← hok, cfgOkBit_eq_one, errCode_eq_zero]
    rw [portFunction_of_no_layout hw]
    exact ⟨by simp [DecodedPorts.none], hstatus, by simp [DecodedPorts.none], by simp [DecodedPorts.none]⟩

/-- Settles O53: a step drives the output function, which has no such code. -/
theorem stepProducesLegalCodes : Obligations.StepProducesLegalCodes := by
  unfold Obligations.StepProducesLegalCodes
  intro s t h
  rw [step_eq_showing] at h
  cases h
  exact portFunction_codesLegal s.present.input

end Sys2Proof.Machine

/-! SUPPORT. How many patterns of each class a layout has (30_encoding.md R61, R64). -/

namespace Sys2Proof.Machine

section
variable (cfg : LayoutConfig)

/-! ### The fields of a class -/

/-- The stored exponents of a class; `classOf_eq_iff` ties them and `classFractions` to CLASSIFY's rule. -/
def classExponents : Classification → Finset Nat
  | .zero | .subnormal => {0}
  | .normal => Finset.Ico 1 cfg.allOnes
  | .infinity | .nan => {cfg.allOnes}

/-- The stored fractions of a class. -/
def classFractions : Classification → Finset Nat
  | .zero | .infinity => {0}
  | .subnormal | .nan => Finset.Ico 1 (2 ^ cfg.fractionBits)
  | .normal => Finset.range (2 ^ cfg.fractionBits)

/-- Each branch of CLASSIFY's rule against the fields of each class. -/
theorem classOf_eq_iff {f : DecodedFields} (h : f.inRange cfg = true) (c : Classification) :
    classOf f cfg = c ↔ f.exponent ∈ classExponents cfg c ∧ f.fraction ∈ classFractions cfg c := by
  obtain ⟨hexp, hfrac⟩ := inRange_iff.mp h
  have hle : f.exponent ≤ cfg.allOnes := Nat.le_sub_one_of_lt hexp
  have hones := allOnes_ne_zero cfg
  unfold classOf
  cases c with
  | zero | subnormal | normal | infinity | nan =>
    simp only [classExponents, classFractions, Finset.mem_singleton, Finset.mem_Ico, Finset.mem_range]
    split_ifs
    all_goals simp only [true_iff, false_iff]
    all_goals omega

theorem inRange_of_mem_class {c : Classification} {f : DecodedFields} (he : f.exponent ∈ classExponents cfg c)
    (hf : f.fraction ∈ classFractions cfg c) : f.inRange cfg = true := by
  have hones := cfg.allOnes_lt
  have hexp := Nat.two_pow_pos cfg.exponentBits
  have hfrac := Nat.two_pow_pos cfg.fractionBits
  rw [inRange_iff]
  cases c with
  | zero | subnormal | normal | infinity | nan =>
    simp only [classExponents, classFractions, Finset.mem_singleton, Finset.mem_Ico, Finset.mem_range] at he hf
    omega

/-! ### Patterns and fields, one to one -/

theorem toNat_assemble_lt (sign : Bit) {e f : Nat} (he : e < 2 ^ cfg.exponentBits) (hf : f < 2 ^ cfg.fractionBits) :
    (cfg.assemble sign e f).toNat < 2 ^ cfg.totalBits := by
  rw [toNat_assemble cfg sign he hf]
  calc
    _ < 2 * 2 ^ cfg.exponentBits * 2 ^ cfg.fractionBits := mul_add_lt_mul (mul_add_lt_mul sign.isLt he) hf
    _ = 2 ^ cfg.totalBits := by rw [LayoutConfig.totalBits]; ring

theorem toNat_ofNat_and_patternMask {n : Nat} (h : n < 2 ^ cfg.totalBits) :
    (BitVec.ofNat 32 n &&& cfg.patternMask).toNat = n := by
  have h32 : n < 2 ^ 32 := h.trans_le (Nat.pow_le_pow_right (by decide) cfg.totalBits_le)
  rw [BitVec.toNat_and, toNat_patternMask, BitVec.toNat_ofNat, Nat.mod_eq_of_lt h32, Nat.and_two_pow_sub_one_eq_mod,
    Nat.mod_eq_of_lt h]

/-- A pattern of a class is a sign, one of the class's exponents and one of its fractions, in any combination. -/
theorem card_patterns (c : Classification) :
    ((Finset.range (2 ^ cfg.totalBits)).filter fun n =>
        classOf (extractFields (BitVec.ofNat 32 n) cfg) cfg = c).card =
      2 * ((classExponents cfg c).card * (classFractions cfg c).card) := by
  have hfields : ((Finset.univ : Finset Bit) ×ˢ classExponents cfg c ×ˢ classFractions cfg c).card =
      2 * ((classExponents cfg c).card * (classFractions cfg c).card) := by
    rw [Finset.card_product, Finset.card_product]
    rfl
  rw [← hfields]
  refine Finset.card_nbij'
    (fun n => ((extractFields (BitVec.ofNat 32 n) cfg).sign, (extractFields (BitVec.ofNat 32 n) cfg).exponent,
      (extractFields (BitVec.ofNat 32 n) cfg).fraction))
    (fun p => (cfg.assemble p.1 p.2.1 p.2.2).toNat) ?_ ?_ ?_ ?_
  · intro n hn
    obtain ⟨-, hclass⟩ := Finset.mem_filter.mp hn
    have hmem := (classOf_eq_iff cfg (extractFields_inRange _ cfg) c).mp hclass
    simpa using hmem
  · intro ⟨sign, e, f⟩ hp
    obtain ⟨he, hf⟩ : e ∈ classExponents cfg c ∧ f ∈ classFractions cfg c := by simpa using hp
    have hrange := inRange_of_mem_class (f := ⟨sign, e, f⟩) cfg he hf
    obtain ⟨hexp, hfrac⟩ := inRange_iff.mp hrange
    simp [toNat_assemble_lt cfg sign hexp hfrac, extractFields_assemble cfg sign hexp hfrac,
      classOf_eq_iff cfg hrange, he, hf]
  · intro n hn
    obtain ⟨hlt, -⟩ := Finset.mem_filter.mp hn
    show (cfg.assemble _ _ _).toNat = n
    rw [assemble_extractFields, toNat_ofNat_and_patternMask cfg (Finset.mem_range.mp hlt)]
  · intro ⟨sign, e, f⟩ hp
    obtain ⟨he, hf⟩ : e ∈ classExponents cfg c ∧ f ∈ classFractions cfg c := by simpa using hp
    obtain ⟨hexp, hfrac⟩ := inRange_iff.mp (inRange_of_mem_class (f := ⟨sign, e, f⟩) cfg he hf)
    simp [extractFields_assemble cfg sign hexp hfrac]

end

/-- Zero and Infinity have one pattern of each sign, Subnormal and NaN 2^fb - 1, Normal (2^eb - 2) 2^fb. -/
theorem card_class_add {E F : Nat} (hE : 2 ≤ E) (hF : 1 ≤ F) :
    2 + 2 * (F - 1) + 2 * ((E - 2) * F) + 2 + 2 * (F - 1) = F * E * 2 := by
  obtain ⟨E, rfl⟩ := Nat.exists_eq_add_of_le hE
  obtain ⟨F, rfl⟩ := Nat.exists_eq_add_of_le hF
  simp only [Nat.add_sub_cancel_left]
  ring

/-- Settles O23: each class is counted by its fields, as `card_patterns` says. -/
theorem patternCountsOfTheClasses : Obligations.PatternCountsOfTheClasses := by
  unfold Obligations.PatternCountsOfTheClasses
  intro cfg
  have hexp : 2 ^ 1 ≤ 2 ^ cfg.exponentBits := Nat.pow_le_pow_right (by decide) (by have := cfg.three_le_eb; omega)
  have hnormal : cfg.allOnes - 1 = 2 ^ cfg.exponentBits - 2 := by unfold LayoutConfig.allOnes; omega
  simp only [card_patterns, classExponents, classFractions, Finset.card_singleton, Nat.card_Ico, Finset.card_range,
    hnormal, Nat.one_mul, Nat.mul_one, true_and]
  refine ⟨(Nat.mul_assoc _ _ _).symm, ?_⟩
  rw [card_class_add hexp (Nat.two_pow_pos _), Nat.pow_succ, Nat.pow_add]

end Sys2Proof.Machine

/-! SUPPORT. The numbers EFFEXP and MANT show, beside RECONSTRUCT's function-view result (30_encoding.md R68;
42_fractional_value.md R101, R103; 43_classify_reconstruct.md R117, R118, R123). -/

namespace Sys2Proof.Machine

/-! ### The weighted sum is a quotient -/

theorem bitWeight_eq_div (fb i : Nat) : bitWeight fb i = (2 ^ i : Nat) / 2 ^ fb := by
  rw [bitWeight, neg_sub, zpow_sub₀ (by norm_num), zpow_natCast, zpow_natCast]
  push_cast
  rfl

/-- The weights of the set bits below `n` add up to the number those bits make, over 2^fb. -/
theorem sum_bitWeights (f fb n : Nat) :
    ((List.range n).map fun i => if f.testBit i then bitWeight fb i else 0).sum =
      ((f % 2 ^ n : Nat) : ℚ) / 2 ^ fb := by
  induction n with
  | zero => simp [Nat.mod_one]
  | succ n ih =>
    rw [List.range_succ, List.map_append, List.map_singleton, List.sum_append, List.sum_singleton, ih,
      Nat.mod_pow_succ, Nat.testBit_eq_decide_div_mod_eq]
    rcases Nat.mod_two_eq_zero_or_one (f / 2 ^ n) with hbit | hbit
    · simp [hbit]
    · simp [hbit, bitWeight_eq_div, add_div]

theorem fractionalValue_eq_div {f fb : Nat} (h : f < 2 ^ fb) : fractionalValue f fb = (f : ℚ) / 2 ^ fb := by
  rw [fractionalValue, sum_bitWeights, Nat.mod_eq_of_lt h]

/-! ### MANT -/

theorem mul_pow_sub_lt {f fb : Nat} (hfb : fb ≤ 23) (h : f < 2 ^ fb) : f * 2 ^ (23 - fb) < 2 ^ 23 :=
  calc
    f * 2 ^ (23 - fb) < 2 ^ fb * 2 ^ (23 - fb) := Nat.mul_lt_mul_of_pos_right h (Nat.two_pow_pos _)
    _ = 2 ^ 23 := by rw [← Nat.pow_add, Nat.add_sub_cancel' hfb]

theorem toNat_alignedFraction {f fb : Nat} (hfb : fb ≤ 23) (h : f < 2 ^ fb) :
    (alignedFraction f fb).toNat = f * 2 ^ (23 - fb) := by
  rw [alignedFraction, BitVec.toNat_ofNat, Nat.shiftLeft_eq, Nat.mod_eq_of_lt (mul_pow_sub_lt hfb h)]

theorem toNat_bit_append (b : Bit) (v : BitVec 23) : (b ++ v : BitVec 24).toNat = b.toNat * 2 ^ 23 + v.toNat := by
  rw [BitVec.toNat_append, ← Nat.shiftLeft_add_eq_or_of_lt v.isLt, Nat.shiftLeft_eq]

theorem mul_pow_sub_div (f : Nat) {fb : Nat} (hfb : fb ≤ 23) :
    ((f * 2 ^ (23 - fb) : Nat) : ℚ) / 2 ^ 23 = (f : ℚ) / 2 ^ fb := by
  have hpow : (2 : ℚ) ^ 23 = 2 ^ fb * 2 ^ (23 - fb) := by rw [← pow_add, Nat.add_sub_cancel' hfb]
  push_cast
  rw [hpow, mul_div_mul_right _ _ (by positivity)]

/-- The mantissa multiplier of a class; `decodedValue_mantissaMultiplier` ties it to RECONSTRUCT. -/
def mantissaOf (c : Classification) (fraction : Nat) (cfg : LayoutConfig) : Option ℚ :=
  match c with
  | .zero | .subnormal => some ((fraction : ℚ) / 2 ^ cfg.fractionBits)
  | .normal => some (1 + (fraction : ℚ) / 2 ^ cfg.fractionBits)
  | .infinity | .nan => none

/-- MANT over 2^23 is the mantissa multiplier: the implicit bit weighs 1, the fraction is aligned below it. -/
theorem toNat_mantPattern_div {c : Classification} {f : Nat} {cfg : LayoutConfig} {m : ℚ}
    (hf : f < 2 ^ cfg.fractionBits) (hm : mantissaOf c f cfg = some m) :
    ((mantPattern c f cfg).toNat : ℚ) / 2 ^ 23 = m := by
  have haligned := mul_pow_sub_div f cfg.fb_le
  cases c with
  | infinity | nan => cases hm
  | zero | subnormal =>
    cases hm
    rw [mantPattern, toNat_bit_append, toNat_alignedFraction cfg.fb_le hf, ← haligned]
    simp
  | normal =>
    cases hm
    rw [mantPattern, toNat_bit_append, toNat_alignedFraction cfg.fb_le hf, ← haligned]
    norm_num [add_div]

/-! ### EFFEXP -/

section
variable (cfg : LayoutConfig)

theorem allOnes_eq_bias : cfg.allOnes = 2 * cfg.bias + 1 := by
  unfold LayoutConfig.allOnes LayoutConfig.bias
  rcases cfg.eb_cases with h | h | h | h | h | h <;> rw [h] <;> rfl

theorem bias_bounds : 3 ≤ cfg.bias ∧ cfg.bias ≤ 127 := by
  unfold LayoutConfig.bias
  rcases cfg.eb_cases with h | h | h | h | h | h <;> rw [h] <;> decide

theorem effectiveExponent_bounds {f : DecodedFields} (hf : f.inRange cfg = true) {x : Int}
    (hx : effectiveExponent (classOf f cfg) f.exponent cfg = some x) : -126 ≤ x ∧ x ≤ 127 := by
  obtain ⟨hlow, hhigh⟩ := bias_bounds cfg
  cases hc : classOf f cfg with
  | infinity | nan => rw [hc] at hx; cases hx
  | zero | subnormal => rw [hc] at hx; cases hx; omega
  | normal =>
    rw [hc] at hx
    cases hx
    obtain ⟨hexp, -⟩ := (classOf_eq_iff cfg hf .normal).mp hc
    have hones := allOnes_eq_bias cfg
    obtain ⟨hpos, hlt⟩ := Finset.mem_Ico.mp hexp
    omega

theorem toInt_effExpPattern {x : Int} (hlow : -126 ≤ x) (hhigh : x ≤ 127) : (effExpPattern (some x)).toInt = x :=
  BitVec.toInt_ofInt_eq_self (by decide) (by omega) (by omega)

end

/-! ### The function view by class -/

section
variable (f : DecodedFields) (cfg : LayoutConfig)

theorem decodedValue_classification : (decodedValue f cfg).classification = classOf f cfg := by
  unfold decodedValue
  cases classOf f cfg <;> rfl

theorem decodedValue_effectiveExponent :
    (decodedValue f cfg).effectiveExponent = effectiveExponent (classOf f cfg) f.exponent cfg := by
  unfold decodedValue
  cases classOf f cfg <;> rfl

theorem decodedValue_mantissaMultiplier (h : f.inRange cfg = true) :
    (decodedValue f cfg).mantissaMultiplier = mantissaOf (classOf f cfg) f.fraction cfg := by
  unfold decodedValue
  rw [fractionalValue_eq_div (inRange_iff.mp h).2]
  cases classOf f cfg <;> rfl

end

/-- With CFG_OK = 1 RECONSTRUCT drives the decoded group and answers its function-view result. -/
theorem reconstruct_views {f : DecodedFields} {cfg : LayoutConfig} {s : State} (hok : s.config.cfgOk = 1#1)
    (h : f.inRange cfg = true) :
    exec (.reconstruct f cfg) s = .next { s with decoded := decodedPorts f cfg } ∧
      reconstruct f cfg = some (decodedValue f cfg) :=
  ⟨(if_pos h).trans (by rw [driveDecoded_of_ok s _ hok]), if_pos h⟩

/-- Settles O41: by class, EFFEXP holds the effective exponent whole and MANT the mantissa times 2^23. -/
theorem portsShowTheFunctionView : Obligations.PortsShowTheFunctionView := by
  unfold Obligations.PortsShowTheFunctionView
  intro f cfg s hok hrange
  obtain ⟨hexec, hview⟩ := reconstruct_views hok hrange
  have hbounds := fun x => effectiveExponent_bounds cfg hrange (x := x)
  have hmant := fun m => toNat_mantPattern_div (c := classOf f cfg) (cfg := cfg) (m := m) (inRange_iff.mp hrange).2
  refine ⟨_, _, hexec, hview, ?_⟩
  rw [decodedValue_classification, decodedValue_effectiveExponent, decodedValue_mantissaMultiplier f cfg hrange]
  refine ⟨rfl, mantPattern_msb_iff _ _ _, ?_⟩
  dsimp only [decodedPorts]
  generalize classOf f cfg = c at hbounds hmant ⊢
  cases c with
  | infinity | nan => exact ⟨(by decide : -126 ≤ (0#8).toInt), (by decide : (0#8).toInt ≤ 127), rfl, rfl, rfl⟩
  | zero | subnormal | normal =>
    obtain ⟨hlow, hhigh⟩ := hbounds _ rfl
    have heff := toInt_effExpPattern hlow hhigh
    exact ⟨hlow.trans_eq heff.symm, heff.trans_le hhigh, rfl, heff, hmant _ rfl⟩

end Sys2Proof.Machine

/-! SUPPORT. VALUE is the same number under (23, 8), and no other pattern is (30_encoding.md R69;
43_classify_reconstruct.md R119, R124). -/

namespace Sys2Proof.Machine

/-! ### Finite magnitudes as whole numbers of units -/

/-- The magnitude of finite fields in units of the last place of a Subnormal; `numericValue_of_finite` ties it to
RECONSTRUCT. -/
def magnitudeUnits (fb e f : Nat) : Nat := if e = 0 then f else (2 ^ fb + f) * 2 ^ (e - 1)

@[simp] theorem magnitudeUnits_zero (fb f : Nat) : magnitudeUnits fb 0 f = f := rfl

@[simp] theorem magnitudeUnits_succ (fb e f : Nat) : magnitudeUnits fb (e + 1) f = (2 ^ fb + f) * 2 ^ e := rfl

theorem magnitudeUnits_lt_next_fraction (fb e f : Nat) : magnitudeUnits fb e f < magnitudeUnits fb e (f + 1) := by
  cases e with
  | zero => exact Nat.lt_succ_self f
  | succ e => exact Nat.mul_lt_mul_of_pos_right (Nat.lt_succ_self _) (Nat.two_pow_pos e)

theorem magnitudeUnits_lt_next_exponent {fb f : Nat} (hf : f < 2 ^ fb) (e : Nat) :
    magnitudeUnits fb e f < magnitudeUnits fb (e + 1) 0 := by
  cases e with
  | zero => simpa using hf
  | succ e =>
    rw [magnitudeUnits_succ, magnitudeUnits_succ, Nat.pow_succ, Nat.mul_comm (2 ^ e), ← Nat.mul_assoc]
    exact Nat.mul_lt_mul_of_pos_right (by omega) (Nat.two_pow_pos e)

/-- The next pattern has the greater magnitude, within an exponent and across to the next one. -/
theorem magnitudeUnits_strictMono (fb : Nat) :
    StrictMono fun k => magnitudeUnits fb (k / 2 ^ fb) (k % 2 ^ fb) := by
  refine strictMono_nat_of_lt_succ fun k => ?_
  have hlt := Nat.mod_lt k (Nat.two_pow_pos fb)
  have hsplit := Nat.div_add_mod' k (2 ^ fb)
  obtain hsame | hcarry : k % 2 ^ fb + 1 < 2 ^ fb ∨ k % 2 ^ fb + 1 = 2 ^ fb := by omega
  · obtain ⟨hdiv, hmod⟩ := place_div_mod (k / 2 ^ fb) hsame
    rw [← Nat.add_assoc, hsplit] at hdiv hmod
    rw [hdiv, hmod]
    exact magnitudeUnits_lt_next_fraction fb _ _
  · obtain ⟨hdiv, hmod⟩ := place_div_mod (k / 2 ^ fb + 1) (Nat.two_pow_pos fb)
    have hnext : (k / 2 ^ fb + 1) * 2 ^ fb + 0 = k + 1 := by rw [Nat.add_mul]; omega
    rw [hnext] at hdiv hmod
    rw [hdiv, hmod]
    exact magnitudeUnits_lt_next_exponent hlt _

theorem magnitudeUnits_inj {fb e f e' f' : Nat} (hf : f < 2 ^ fb) (hf' : f' < 2 ^ fb)
    (h : magnitudeUnits fb e f = magnitudeUnits fb e' f') : e = e' ∧ f = f' := by
  obtain ⟨hdiv, hmod⟩ := place_div_mod e hf
  obtain ⟨hdiv', hmod'⟩ := place_div_mod e' hf'
  have hsame : e * 2 ^ fb + f = e' * 2 ^ fb + f' := by
    apply (magnitudeUnits_strictMono fb).injective
    simpa only [hdiv, hmod, hdiv', hmod'] using h
  exact ⟨by rw [← hdiv, hsame, hdiv'], by rw [← hmod, hsame, hmod']⟩

/-! ### The numeric value of fields -/

section
variable {f g : DecodedFields} {cfg : LayoutConfig}

theorem fraction_mul_zpow (f fb : Nat) (x : ℤ) : (f : ℚ) / 2 ^ fb * 2 ^ x = f * 2 ^ (x - (fb : ℤ)) := by
  rw [zpow_sub₀ two_ne_zero, zpow_natCast]
  ring

theorem significand_mul_zpow (f fb e : Nat) (b : ℤ) :
    (1 + (f : ℚ) / 2 ^ fb) * 2 ^ (((e + 1 : Nat) : ℤ) - b) =
      ((2 ^ fb + f) * 2 ^ e : Nat) * 2 ^ (1 - b - (fb : ℤ)) := by
  have hone : 1 + (f : ℚ) / 2 ^ fb = ((2 ^ fb + f : Nat) : ℚ) / 2 ^ fb := by
    push_cast
    rw [add_div, div_self (by positivity)]
  have hexp : ((e + 1 : Nat) : ℤ) - b - (fb : ℤ) = (e : ℤ) + (1 - b - (fb : ℤ)) := by push_cast; ring
  rw [hone, fraction_mul_zpow, hexp, zpow_add₀ two_ne_zero, zpow_natCast]
  push_cast
  ring

theorem numericValue_of_finite (h : f.inRange cfg = true) (hfin : f.exponent ≠ cfg.allOnes) :
    (decodedValue f cfg).numericValue =
      .finite f.sign (magnitudeUnits cfg.fractionBits f.exponent f.fraction *
        (2 : ℚ) ^ (1 - (cfg.bias : ℤ) - (cfg.fractionBits : ℤ))) := by
  unfold decodedValue classOf
  rw [if_neg hfin, fractionalValue_eq_div (inRange_iff.mp h).2]
  by_cases hzero : f.exponent = 0
  · rw [if_pos hzero, hzero, magnitudeUnits_zero, ← fraction_mul_zpow]
    split_ifs <;> rfl
  · obtain ⟨e, he⟩ := Nat.exists_eq_succ_of_ne_zero hzero
    rw [if_neg hzero, he, magnitudeUnits_succ, ← significand_mul_zpow]
    rfl

theorem numericValue_cases (h : f.inRange cfg = true) :
    (f.exponent = cfg.allOnes ∧ f.fraction = 0 ∧ (decodedValue f cfg).numericValue = .infinite f.sign) ∨
      (f.exponent = cfg.allOnes ∧ (decodedValue f cfg).numericValue = .nan) ∨
      (f.exponent ≠ cfg.allOnes ∧ (decodedValue f cfg).numericValue =
        .finite f.sign (magnitudeUnits cfg.fractionBits f.exponent f.fraction *
          (2 : ℚ) ^ (1 - (cfg.bias : ℤ) - (cfg.fractionBits : ℤ)))) := by
  by_cases hones : f.exponent = cfg.allOnes
  · by_cases hfrac : f.fraction = 0
    · exact .inl ⟨hones, hfrac, by simp [decodedValue, classOf, hones, hfrac]⟩
    · exact .inr (.inl ⟨hones, by simp [decodedValue, classOf, hones, hfrac]⟩)
  · exact .inr (.inr ⟨hones, numericValue_of_finite h hones⟩)

/-- Two patterns of a layout with one numeric value, NaN excepted, have the same fields. -/
theorem fields_eq_of_numericValue_eq (hf : f.inRange cfg = true) (hg : g.inRange cfg = true)
    (hne : (decodedValue f cfg).numericValue ≠ .nan)
    (h : (decodedValue f cfg).numericValue = (decodedValue g cfg).numericValue) : f = g := by
  obtain ⟨he, hfr, hv⟩ | ⟨-, hv⟩ | ⟨-, hv⟩ := numericValue_cases hf
  · obtain ⟨he', hfr', hv'⟩ | ⟨-, hv'⟩ | ⟨-, hv'⟩ := numericValue_cases hg
    · rw [hv, hv'] at h
      exact eq_of_fields (congrArg BitVec.toNat (NumericValue.infinite.inj h)) (he.trans he'.symm)
        (hfr.trans hfr'.symm)
    · rw [hv, hv'] at h; cases h
    · rw [hv, hv'] at h; cases h
  · exact absurd hv hne
  · obtain ⟨-, -, hv'⟩ | ⟨-, hv'⟩ | ⟨-, hv'⟩ := numericValue_cases hg
    · rw [hv, hv'] at h; cases h
    · rw [hv, hv'] at h; cases h
    · rw [hv, hv'] at h
      obtain ⟨hsign, hmag⟩ := NumericValue.finite.inj h
      have hunits := Nat.cast_injective (mul_right_cancel₀ (by positivity) hmag)
      obtain ⟨he, hfr⟩ := magnitudeUnits_inj (inRange_iff.mp hf).2 (inRange_iff.mp hg).2 hunits
      exact eq_of_fields (congrArg BitVec.toNat hsign) he hfr

end

/-! ### VALUE as a pattern of the layout (23, 8) -/

theorem packValue_eq_assemble (sign : Bit) (e : Byte) (m : BitVec 23) :
    packValue sign e m = valueLayout.assemble sign e.toNat m.toNat := by
  apply BitVec.eq_of_toNat_eq
  rw [toNat_assemble valueLayout sign e.isLt m.isLt, packValue, BitVec.toNat_append, BitVec.toNat_append,
    ← Nat.shiftLeft_add_eq_or_of_lt e.isLt, ← Nat.shiftLeft_add_eq_or_of_lt m.isLt, Nat.shiftLeft_eq,
    Nat.shiftLeft_eq]
  rfl

theorem extractFields_packValue (sign : Bit) (e : Byte) (m : BitVec 23) :
    extractFields (packValue sign e m) valueLayout = { sign := sign, exponent := e.toNat, fraction := m.toNat } := by
  rw [packValue_eq_assemble, extractFields_assemble valueLayout sign e.isLt m.isLt]

theorem toNat_ofInt_byte {x : ℤ} {k : Nat} (h : x = k) (hk : k < 256) : (BitVec.ofInt 8 x).toNat = k := by
  rw [h, BitVec.ofInt_natCast, BitVec.toNat_ofNat, Nat.mod_eq_of_lt hk]

section
variable {f : DecodedFields} {cfg : LayoutConfig}

/-- A finite number is VALUE's when VALUE's magnitude, whose unit is 2^-149, is the same whole number of the layout's
units. -/
theorem numberOf_packValue {e : Byte} {m : BitVec 23} (h : f.inRange cfg = true) (hfin : f.exponent ≠ cfg.allOnes)
    (he : e.toNat ≠ 255)
    (hunits : magnitudeUnits 23 e.toNat m.toNat =
      magnitudeUnits cfg.fractionBits f.exponent f.fraction * 2 ^ (150 - cfg.bias - cfg.fractionBits)) :
    numberOf (packValue f.sign e m) valueLayout = (decodedValue f cfg).numericValue := by
  obtain ⟨-, hbias⟩ := bias_bounds cfg
  have hfb := cfg.fb_le
  have hunit : (1 - (cfg.bias : ℤ) - (cfg.fractionBits : ℤ)) =
      ((150 - cfg.bias - cfg.fractionBits : Nat) : ℤ) + (1 - 127 - 23) := by omega
  have hrange : ({ sign := f.sign, exponent := e.toNat, fraction := m.toNat } : DecodedFields).inRange valueLayout :=
    inRange_iff.mpr ⟨e.isLt, m.isLt⟩
  rw [numberOf, extractFields_packValue, numericValue_of_finite hrange he, numericValue_of_finite h hfin, hunit,
    zpow_add₀ two_ne_zero, zpow_natCast, ← mul_assoc]
  show NumericValue.finite _ ((magnitudeUnits 23 e.toNat m.toNat : Nat) * _) = _
  rw [hunits]
  push_cast
  rfl

/-- The power of two between the layout's unit and VALUE's: the alignment and the difference of the biases. -/
theorem unit_shift_eq (cfg : LayoutConfig) :
    150 - cfg.bias - cfg.fractionBits = 23 - cfg.fractionBits + (127 - cfg.bias) := by
  obtain ⟨-, hbias⟩ := bias_bounds cfg
  have hfb := cfg.fb_le
  omega

theorem numberOf_value_normal (h : f.inRange cfg = true) (hc : classOf f cfg = .normal) :
    numberOf (decodedPorts f cfg).value valueLayout = (decodedValue f cfg).numericValue := by
  obtain ⟨hexp, -⟩ := (classOf_eq_iff cfg h .normal).mp hc
  obtain ⟨hpos, hlt⟩ := Finset.mem_Ico.mp hexp
  obtain ⟨e, he⟩ := Nat.exists_eq_add_of_le' hpos
  obtain ⟨-, hbias⟩ := bias_bounds cfg
  have hones := allOnes_eq_bias cfg
  have hrebiased : (BitVec.ofInt 8 ((f.exponent : ℤ) - cfg.bias + 127)).toNat = e + (127 - cfg.bias) + 1 :=
    toNat_ofInt_byte (by omega) (by omega)
  simp only [decodedPorts, hc, valuePattern, effectiveExponent, Option.getD_some, mantPattern,
    BitVec.setWidth_append_eq_right]
  refine numberOf_packValue h hlt.ne (by omega) ?_
  have hpow : 2 ^ 23 = 2 ^ cfg.fractionBits * 2 ^ (23 - cfg.fractionBits) := by
    rw [← Nat.pow_add, Nat.add_sub_cancel' cfg.fb_le]
  rw [hrebiased, toNat_alignedFraction cfg.fb_le (inRange_iff.mp h).2, he, magnitudeUnits_succ, magnitudeUnits_succ,
    unit_shift_eq, hpow]
  ring

/-- Shifted up until its highest set bit is bit 23, a number of at most 23 bits is the implicit bit and the rest. -/
theorem normalised_significand {n : Nat} (hpos : n ≠ 0) (hlt : n < 2 ^ 23) :
    msb n ≤ 22 ∧ 2 ^ 23 + (BitVec.ofNat 23 (n <<< (23 - msb n))).toNat = n * 2 ^ (23 - msb n) := by
  have hmsb : msb n < 23 := (Nat.log2_lt hpos).mpr hlt
  have hpow : 2 ^ msb n * 2 ^ (23 - msb n) = 2 ^ 23 := by rw [← Nat.pow_add, Nat.add_sub_cancel' hmsb.le]
  have hlow : 2 ^ 23 ≤ n * 2 ^ (23 - msb n) := hpow ▸ Nat.mul_le_mul_right _ (Nat.log2_self_le hpos)
  have hhigh : n * 2 ^ (23 - msb n) < 2 ^ 23 * 2 := by
    rw [← hpow, Nat.mul_right_comm, ← Nat.pow_succ]
    exact Nat.mul_lt_mul_of_pos_right Nat.lt_log2_self (Nat.two_pow_pos _)
  rw [BitVec.toNat_ofNat, Nat.shiftLeft_eq]
  omega

theorem toNat_mantPattern_subnormal (hf : f.fraction < 2 ^ cfg.fractionBits) :
    (mantPattern .subnormal f.fraction cfg).toNat = f.fraction * 2 ^ (23 - cfg.fractionBits) := by
  rw [mantPattern, toNat_bit_append, toNat_alignedFraction cfg.fb_le hf]
  simp

/-- With an 8-bit exponent the Subnormal stays one: the biases agree, and the fraction is aligned. -/
theorem numberOf_subnormalValue_kept (h : f.inRange cfg = true) (hexp : f.exponent = 0) (h8 : cfg.exponentBits = 8)
    (e : Int) :
    numberOf (subnormalValue f.sign e (mantPattern .subnormal f.fraction cfg) cfg) valueLayout =
      (decodedValue f cfg).numericValue := by
  have hbias : cfg.bias = 127 := by rw [LayoutConfig.bias, h8]; rfl
  rw [subnormalValue, if_pos h8, mantPattern, BitVec.setWidth_append_eq_right]
  refine numberOf_packValue h (hexp ▸ (allOnes_ne_zero cfg).symm) (by decide) ?_
  rw [toNat_alignedFraction cfg.fb_le (inRange_iff.mp h).2, hexp, unit_shift_eq, hbias]
  rfl

/-- With a narrower exponent the Subnormal becomes a Normal: its highest set bit is the implicit one. -/
theorem numberOf_subnormalValue_normalised (h : f.inRange cfg = true) (hexp : f.exponent = 0)
    (hpos : f.fraction ≠ 0) (h8 : cfg.exponentBits ≠ 8) :
    numberOf (subnormalValue f.sign (1 - (cfg.bias : ℤ)) (mantPattern .subnormal f.fraction cfg) cfg) valueLayout =
      (decodedValue f cfg).numericValue := by
  obtain ⟨-, hfrac⟩ := inRange_iff.mp h
  have hbias : cfg.bias ≤ 63 := by
    have hnarrow : cfg.exponentBits - 1 ≤ 6 := by have := cfg.eb_le; omega
    exact Nat.sub_le_sub_right (Nat.pow_le_pow_right (by decide) hnarrow) 1
  obtain ⟨hmsb, hsignificand⟩ := normalised_significand
    (Nat.mul_ne_zero hpos (Nat.two_pow_pos (23 - cfg.fractionBits)).ne') (mul_pow_sub_lt cfg.fb_le hfrac)
  rw [subnormalValue, if_neg h8, toNat_mantPattern_subnormal hfrac]
  generalize msb (f.fraction * 2 ^ (23 - cfg.fractionBits)) = p at hmsb hsignificand ⊢
  have hrebiased : (BitVec.ofInt 8 (1 - (cfg.bias : ℤ) - (23 - (p : ℤ)) + 127)).toNat = 104 - cfg.bias + p + 1 :=
    toNat_ofInt_byte (by omega) (by omega)
  have hshift : 127 - cfg.bias = 23 - p + (104 - cfg.bias + p) := by omega
  refine numberOf_packValue h (hexp ▸ (allOnes_ne_zero cfg).symm) (by omega) ?_
  rw [hrebiased, magnitudeUnits_succ, hsignificand, hexp, magnitudeUnits_zero, unit_shift_eq, hshift]
  ring

theorem numberOf_value_subnormal (h : f.inRange cfg = true) (hc : classOf f cfg = .subnormal) :
    numberOf (decodedPorts f cfg).value valueLayout = (decodedValue f cfg).numericValue := by
  obtain ⟨he, hfr⟩ := (classOf_eq_iff cfg h .subnormal).mp hc
  have hexp : f.exponent = 0 := Finset.mem_singleton.mp he
  obtain ⟨hpos, -⟩ := Finset.mem_Ico.mp hfr
  simp only [decodedPorts, hc, valuePattern, effectiveExponent, Option.getD_some]
  by_cases h8 : cfg.exponentBits = 8
  · exact numberOf_subnormalValue_kept h hexp h8 _
  · exact numberOf_subnormalValue_normalised h hexp (Nat.one_le_iff_ne_zero.mp hpos) h8

theorem numberOf_value_zero (h : f.inRange cfg = true) (hc : classOf f cfg = .zero) :
    numberOf (decodedPorts f cfg).value valueLayout = (decodedValue f cfg).numericValue := by
  obtain ⟨he, hfr⟩ := (classOf_eq_iff cfg h .zero).mp hc
  have hexp : f.exponent = 0 := Finset.mem_singleton.mp he
  have hfrac : f.fraction = 0 := Finset.mem_singleton.mp hfr
  simp only [decodedPorts, hc, valuePattern]
  refine numberOf_packValue h (hexp ▸ (allOnes_ne_zero cfg).symm) (by decide) ?_
  rw [hexp, hfrac, magnitudeUnits_zero, Nat.zero_mul]
  rfl

/-- VALUE is the number of the fields it was made from. -/
theorem numberOf_value (h : f.inRange cfg = true) :
    numberOf (decodedPorts f cfg).value valueLayout = (decodedValue f cfg).numericValue := by
  cases hc : classOf f cfg with
  | normal => exact numberOf_value_normal h hc
  | subnormal => exact numberOf_value_subnormal h hc
  | zero => exact numberOf_value_zero h hc
  | infinity | nan =>
    simp only [decodedPorts, hc, valuePattern, numberOf, extractFields_packValue, decodedValue]
    rfl

theorem classOf_eq_nan (h : (decodedValue f cfg).numericValue = .nan) : classOf f cfg = .nan := by
  unfold decodedValue at h
  cases hc : classOf f cfg with
  | nan => rfl
  | zero | subnormal | normal | infinity => rw [hc] at h; cases h

end

/-- The layout (23, 8) has no ignored bits, so the fields are the whole pattern. -/
theorem eq_of_extractFields_valueLayout {v w : Word}
    (h : extractFields v valueLayout = extractFields w valueLayout) : v = w := by
  have hmask : valueLayout.patternMask = BitVec.allOnes 32 := by decide
  rw [← BitVec.and_allOnes (x := v), ← BitVec.and_allOnes (x := w), ← hmask, ← assemble_extractFields,
    ← assemble_extractFields, h]

/-- Settles O42: VALUE has the number of the fields, and under one layout a number that is not NaN fixes the fields. -/
theorem valuePortIsTheSameNumber : Obligations.ValuePortIsTheSameNumber := by
  unfold Obligations.ValuePortIsTheSameNumber
  intro f cfg s hok hrange
  obtain ⟨hexec, hview⟩ := reconstruct_views hok hrange
  have hnumber := numberOf_value hrange
  refine ⟨_, _, hexec, hview, hnumber, fun hnan => ?_, fun hne w hw => ?_⟩
  · simp only [decodedPorts, classOf_eq_nan hnan, valuePattern]
    decide
  · rw [← hw] at hne
    exact eq_of_extractFields_valueLayout <| fields_eq_of_numericValue_eq (extractFields_inRange w valueLayout)
      (extractFields_inRange _ valueLayout) hne (hw.trans hnumber.symm)

end Sys2Proof.Machine

/-! SUPPORT. VALIDATE and the configuration rows, width by width (40_validate.md R80 to R84, R87). -/

namespace Sys2Proof.Machine

theorem errFrac_iff (fb : Int) : errFrac fb = true ↔ fb < 2 ∨ 23 < fb := by
  simp [errFrac]

theorem errExp_iff (eb : Int) : errExp eb = true ↔ eb < 3 ∨ 8 < eb := by
  simp [errExp]

/-! ### VALIDATE by the layout its widths give -/

section
variable {fb eb : Nat}

theorem validate_of_layout {cfg : LayoutConfig} (h : LayoutConfig.ofWidths fb eb = some cfg) :
    validate fb eb = .ok cfg := by
  obtain ⟨rfl, rfl⟩ := LayoutConfig.ofWidths_eq_some.mp h
  obtain ⟨hf, he⟩ : errFrac cfg.fractionBits = false ∧ errExp cfg.exponentBits = false := by
    simp [errFrac_natCast, errExp_natCast, fractionWidthLegal, exponentWidthLegal, cfg.fraction_legal,
      cfg.exponent_legal]
  simp [validate, hf, he]

theorem exec_validate_of_layout {cfg : LayoutConfig} (h : LayoutConfig.ofWidths fb eb = some cfg) (s : State) :
    exec (.validate fb eb) s = .next (s.driveLayout cfg) := by
  simp only [exec, execValidate, validate_of_layout h]

theorem exec_validate_of_no_layout (h : LayoutConfig.ofWidths fb eb = none) (s : State) :
    exec (.validate fb eb) s = .next (s.deliverError (!fractionWidthLegal fb) (!exponentWidthLegal eb)) := by
  have hillegal := LayoutConfig.ofWidths_eq_none.mp h
  rw [← errFrac_natCast, ← errExp_natCast]
  simp only [exec, execValidate]
  cases hv : validate fb eb with
  | error e => rfl
  | ok cfg =>
    obtain ⟨hf, he⟩ := validate_eq_ok_iff.mp ⟨cfg, hv⟩
    rw [errFrac_natCast, Bool.not_eq_false'] at hf
    rw [errExp_natCast, Bool.not_eq_false'] at he
    simp [hf, he] at hillegal

end

/-! ### TOTAL_BITS and BIAS -/

theorem toNat_totalBits (cfg : LayoutConfig) : (BitVec.ofNat 6 cfg.totalBits).toNat = cfg.totalBits :=
  (BitVec.toNat_ofNat _ _).trans (Nat.mod_eq_of_lt (cfg.totalBits_le.trans_lt (by decide)))

theorem toNat_bias (cfg : LayoutConfig) : (BitVec.ofNat 7 cfg.bias).toNat = cfg.bias :=
  (BitVec.toNat_ofNat _ _).trans (Nat.mod_eq_of_lt ((bias_bounds cfg).2.trans_lt (by decide)))

theorem six_le_totalBits (cfg : LayoutConfig) : 6 ≤ cfg.totalBits := by
  have := cfg.two_le_fb
  have := cfg.three_le_eb
  unfold LayoutConfig.totalBits
  omega

theorem natCast_bias (cfg : LayoutConfig) :
    (cfg.bias : Int) = 2 ^ ((cfg.exponentBits : Int) - 1).toNat - 1 := by
  have hpred : ((cfg.exponentBits : Int) - 1).toNat = cfg.exponentBits - 1 := by omega
  rw [hpred, LayoutConfig.bias, Nat.cast_sub Nat.one_le_two_pow]
  push_cast
  rfl

/-- TOTAL_BITS and BIAS hold the layout's parameters whole, and zeros where there is no layout. -/
theorem exec_validate_parameters {fb eb : Nat} {s t : State} (h : exec (.validate fb eb) s = .next t) :
    (t.config.totalBits.toNat = if t.config.cfgOk = 1#1 then fb + eb + 1 else 0) ∧
      (t.config.bias.toNat = if t.config.cfgOk = 1#1 then (1 <<< (eb - 1)) - 1 else 0) := by
  cases hw : LayoutConfig.ofWidths fb eb with
  | some cfg =>
    obtain ⟨rfl, rfl⟩ := LayoutConfig.ofWidths_eq_some.mp hw
    rw [exec_validate_of_layout hw] at h
    cases h
    rw [driveLayout_config, if_pos rfl, if_pos rfl, Nat.one_shiftLeft]
    exact ⟨toNat_totalBits cfg, toNat_bias cfg⟩
  | none =>
    have hok : cfgOkBit (!fractionWidthLegal fb) (!exponentWidthLegal eb) = 0#1 :=
      (cfgOkBit_eq_zero _ _).mpr (by simpa using LayoutConfig.ofWidths_eq_none.mp hw)
    rw [exec_validate_of_no_layout hw] at h
    cases h
    simp [hok]

/-- Settles O4: legal widths give a layout, whose parameters are within their ranges. -/
theorem validateAcceptsLegalWidths : Obligations.ValidateAcceptsLegalWidths := by
  unfold Obligations.ValidateAcceptsLegalWidths
  intro fb eb s hfmin hfmax hemin hemax
  obtain ⟨cfg, rfl, rfl⟩ : ∃ cfg : LayoutConfig, (cfg.fractionBits : Int) = fb ∧ (cfg.exponentBits : Int) = eb :=
    ⟨⟨fb.toNat, eb.toNat, fraction_legal_of_not_errFrac (by rw [errFrac_iff]; omega),
      exponent_legal_of_not_errExp (by rw [errExp_iff]; omega)⟩, Int.toNat_of_nonneg (by omega),
      Int.toNat_of_nonneg (by omega)⟩
  have htotal : (cfg.totalBits : Int) = cfg.fractionBits + cfg.exponentBits + 1 := by simp [LayoutConfig.totalBits]
  have hbias := natCast_bias cfg
  obtain ⟨hblow, hbhigh⟩ := bias_bounds cfg
  refine ⟨⟨cfg, validate_of_layout cfg.ofWidths_self, rfl, rfl, htotal, hbias, six_le_totalBits cfg,
    cfg.totalBits_le, hblow, hbhigh⟩, ?_⟩
  rw [exec_validate_of_layout cfg.ofWidths_self, ← htotal, ← hbias, BitVec.ofInt_natCast, BitVec.ofInt_natCast]
  rfl

/-! ### The bits of ERR -/

theorem errCode_msb (f e : Bool) : (errCode f e).getLsbD 1 = e := by
  cases f <;> cases e <;> rfl

/-- VALIDATE drives each bit of ERR from its own width. -/
theorem exec_validate_errBits (fb eb : Int) (s : State) :
    ∃ t, exec (.validate fb eb) s = .next t ∧ (t.config.err.getLsbD 0 = true ↔ fb < 2 ∨ 23 < fb) ∧
      (t.config.err.getLsbD 1 = true ↔ eb < 3 ∨ 8 < eb) ∧ (t.config.cfgOk = 1#1 ↔ t.config.err = 0#2) := by
  obtain ⟨t, hexec, herr, hok⟩ := execValidate_status fb eb s
  refine ⟨t, hexec, ?_⟩
  rw [herr, hok, errCode_lsb, errCode_msb, errFrac_iff, errExp_iff, cfgOkBit_eq_one, errCode_eq_zero]
  exact ⟨.rfl, .rfl, .rfl⟩

/-- Settles O5: the returned error and both bits of ERR are read off the two error conditions. -/
theorem validateReportsIllegalWidths : Obligations.ValidateReportsIllegalWidths := by
  unfold Obligations.ValidateReportsIllegalWidths
  intro fb eb s hillegal
  constructor
  · split_ifs with hf
    · exact validate_eq_fractionOutOfRange_iff.mpr ((errFrac_iff fb).mpr hf)
    · exact validate_eq_exponentOutOfRange_iff.mpr
        ⟨Bool.eq_false_iff.mpr (mt (errFrac_iff fb).mp hf), (errExp_iff eb).mpr (hillegal.resolve_left hf)⟩
  · obtain ⟨t, hexec, hbit0, hbit1, hok⟩ := exec_validate_errBits fb eb s
    refine ⟨t, hexec, ?_, hbit0, hbit1⟩
    refine (bit_cases t.config.cfgOk).resolve_right fun hone => ?_
    rw [← hbit0, ← hbit1, hok.mp hone] at hillegal
    exact absurd hillegal (by decide)

/-- Settles O6: ERR and CFG_OK from the two widths, and the parameters as CFG_OK qualifies them. -/
theorem validateDrivesItsPorts : Obligations.ValidateDrivesItsPorts := by
  unfold Obligations.ValidateDrivesItsPorts
  intro fb eb s
  obtain ⟨t, hexec, hbit0, hbit1, hok⟩ := exec_validate_errBits fb.toNat eb.toNat s
  obtain ⟨htotal, hbias⟩ := exec_validate_parameters hexec
  exact ⟨t, hexec, hbit0.trans (by omega), hbit1.trans (by omega), hok, htotal, hbias⟩

/-! ### The configuration rows -/

section
variable {fb eb : Byte}

theorem exec_cfgFractionIllegal (h : (Instr.cfgFractionIllegal fb eb).wellFormed = true) (s : State) :
    exec (.cfgFractionIllegal fb eb) s = .next (s.deliverError true false) := if_pos h

theorem exec_cfgExponentIllegal (h : (Instr.cfgExponentIllegal fb eb).wellFormed = true) (s : State) :
    exec (.cfgExponentIllegal fb eb) s = .next (s.deliverError false true) := if_pos h

theorem exec_cfgBothIllegal (h : (Instr.cfgBothIllegal fb eb).wellFormed = true) (s : State) :
    exec (.cfgBothIllegal fb eb) s = .next (s.deliverError true true) := if_pos h

/-- Under illegal widths the selected row delivers the errors of both widths. -/
theorem exec_decodeConfig_of_no_layout (h : LayoutConfig.ofWidths fb.toNat eb.toNat = none) (s : State) :
    exec (decodeConfig fb eb) s =
      .next (s.deliverError (!fractionWidthLegal fb.toNat) (!exponentWidthLegal eb.toNat)) := by
  have hwf := decodeConfig_wellFormed fb eb
  have hillegal := LayoutConfig.ofWidths_eq_none.mp h
  simp only [decodeConfig, h] at hwf ⊢
  split_ifs at hwf ⊢ with he hf
  · rw [exec_cfgFractionIllegal hwf, hillegal.resolve_right (by simp [he]), he]
    rfl
  · rw [exec_cfgExponentIllegal hwf]
    simp [hf, he]
  · rw [exec_cfgBothIllegal hwf]
    simp [hf, he]

end

/-- Settles O10: both drive the layout the widths give or, where there is none, deliver the errors of both widths. -/
theorem validateIsTheSelectedConfigurationRow : Obligations.ValidateIsTheSelectedConfigurationRow := by
  unfold Obligations.ValidateIsTheSelectedConfigurationRow
  intro fb eb s
  refine ⟨decodeConfig_wellFormed fb eb, ?_⟩
  cases hw : LayoutConfig.ofWidths fb.toNat eb.toNat with
  | some cfg =>
    rw [exec_validate_of_layout hw, decodeConfig, hw]
    rfl
  | none => rw [exec_validate_of_no_layout hw, exec_decodeConfig_of_no_layout hw]

/-- Settles O9: CFG_LEGAL drives its layout, and an illegal row delivers its own two error bits. -/
theorem configurationRowsDriveTheirOutputs : Obligations.ConfigurationRowsDriveTheirOutputs := by
  unfold Obligations.ConfigurationRowsDriveTheirOutputs
  refine ⟨fun _ _ => rfl, fun fb eb s i err hrow hwf => ?_⟩
  obtain ⟨rfl, rfl⟩ | ⟨rfl, rfl⟩ | ⟨rfl, rfl⟩ := hrow
  · exact exec_cfgFractionIllegal hwf s
  · exact exec_cfgExponentIllegal hwf s
  · exact exec_cfgBothIllegal hwf s

end Sys2Proof.Machine

/-! SUPPORT. EXTRACT in the function view and on its ports: the fields as numbers and slices of RAW, their reassembly,
and the bits of RAW that no output reads (41_extract.md R91 to R96). -/

namespace Sys2Proof.Machine

/-- Settles O11: EXTRACT's shifts and masks are quotients and remainders, and the legal widths bound the rest. -/
theorem extractedFieldsAreTheBitFields : Obligations.ExtractedFieldsAreTheBitFields := by
  unfold Obligations.ExtractedFieldsAreTheBitFields
  intro raw cfg
  have hsign : (extractFields raw cfg).sign.toNat = raw.toNat / 2 ^ (cfg.fractionBits + cfg.exponentBits) % 2 := by
    rw [extractFields_sign_toNat, Nat.div_div_eq_div_mul, ← Nat.pow_add]
  obtain ⟨hexp, hfrac⟩ := inRange_iff.mp (extractFields_inRange raw cfg)
  exact ⟨extractFields_fraction raw cfg, extractFields_exponent raw cfg, hsign, hfrac, hexp,
    ⟨cfg.two_le_fb, cfg.fb_le, Nat.sub_le_sub_right cfg.pow_fb_le 1⟩, Nat.add_le_add cfg.two_le_fb cfg.three_le_eb,
    Nat.add_le_add cfg.fb_le cfg.eb_le⟩

/-- Settles O12: each slice of RAW is the field EXTRACT drives on that port. -/
theorem extractDrivesSlicesOfRaw : Obligations.ExtractDrivesSlicesOfRaw := by
  unfold Obligations.ExtractDrivesSlicesOfRaw
  intro raw cfg s
  rw [extractLsb'_sign, setWidth_extractLsb'_exponent, setWidth_extractLsb'_fraction]
  exact congrArg Host.Outcome.next (driveFields_eq s (extractFields raw cfg))

section
variable (cfg : LayoutConfig) (raw : Word)

/-! ### Reassembly -/

theorem toNat_and_patternMask : (raw &&& cfg.patternMask).toNat = raw.toNat &&& ((1 <<< cfg.totalBits) - 1) := by
  rw [BitVec.toNat_and, toNat_patternMask, Nat.one_shiftLeft]

/-- Each field in its place is RAW under the field's mask, and PATTERN_MASK is the union of the three. -/
theorem or_extractFields :
    ((extractFields raw cfg).sign.toNat <<< (cfg.fractionBits + cfg.exponentBits)) |||
        ((extractFields raw cfg).exponent <<< cfg.fractionBits) ||| (extractFields raw cfg).fraction =
      (raw &&& cfg.patternMask).toNat := by
  rw [← toNat_and_signMask, Nat.shiftLeft_eq, ← toNat_and_expMask_eq_mul, extractFields_fraction,
    ← LayoutConfig.toNat_and_fracMask, ← BitVec.toNat_or, ← BitVec.toNat_or, ← BitVec.and_or_distrib_left,
    ← BitVec.and_or_distrib_left, ← patternMask_eq_or]

/-- The fields' places do not overlap, so `+` reassembles the pattern too. -/
theorem add_extractFields :
    ((extractFields raw cfg).sign.toNat <<< (cfg.fractionBits + cfg.exponentBits)) +
        ((extractFields raw cfg).exponent <<< cfg.fractionBits) + (extractFields raw cfg).fraction =
      (raw &&& cfg.patternMask).toNat := by
  obtain ⟨hexp, hfrac⟩ := inRange_iff.mp (extractFields_inRange raw cfg)
  rw [← assemble_extractFields, toNat_assemble cfg _ hexp hfrac, Nat.shiftLeft_eq, Nat.shiftLeft_eq]
  ring

variable {raw} in
theorem and_patternMask_of_lt (h : raw.toNat < 2 ^ cfg.totalBits) : raw &&& cfg.patternMask = raw := by
  have hmasked := toNat_ofNat_and_patternMask cfg h
  rw [BitVec.ofNat_toNat, BitVec.setWidth_eq] at hmasked
  exact BitVec.eq_of_toNat_eq hmasked

/-! ### The ignored bits -/

/-- RAW under PATTERN_MASK is the pattern of RAW's fields, so EXTRACT reads the same fields back. -/
theorem extractFields_and_patternMask : extractFields (raw &&& cfg.patternMask) cfg = extractFields raw cfg := by
  rw [← assemble_extractFields, extractFields_assemble_fields (extractFields_inRange raw cfg)]

variable {raw} in
/-- Under a layout the output function reads RAW through EXTRACT alone. -/
theorem portFunction_stimulus_congr {raw' : Word} (h : extractFields raw cfg = extractFields raw' cfg) :
    portFunction (cfg.stimulus raw) = portFunction (cfg.stimulus raw') := by
  have hfields : extractFields (cfg.stimulus raw).raw cfg = extractFields (cfg.stimulus raw').raw cfg := h
  rw [portFunction_of_layout (ofWidths_stimulus cfg raw), portFunction_of_layout (ofWidths_stimulus cfg raw'),
    hfields]

end

/-- Settles O13: `|` and `+` reassemble RAW under PATTERN_MASK; fields in range are those of their own pattern, and a
pattern below 2^total_bits is the one its fields assemble. -/
theorem reassemblyRecoversThePattern : Obligations.ReassemblyRecoversThePattern := by
  unfold Obligations.ReassemblyRecoversThePattern
  intro cfg
  constructor
  · intro raw
    rw [← toNat_and_patternMask]
    exact ⟨or_extractFields cfg raw, add_extractFields cfg raw⟩
  · intro f hrange
    obtain ⟨hexp, hfrac⟩ := inRange_iff.mp hrange
    refine ⟨cfg.assemble f.sign f.exponent f.fraction,
      ⟨toNat_assemble_lt cfg f.sign hexp hfrac, extractFields_assemble_fields hrange⟩, ?_⟩
    rintro raw ⟨hlt, rfl⟩
    rw [assemble_extractFields, and_patternMask_of_lt cfg hlt]

/-- Settles O15: equal masked patterns have equal fields, and a step shows the output function, which reads no more of
RAW. -/
theorem highBitsOfRawAreIgnored : Obligations.HighBitsOfRawAreIgnored := by
  unfold Obligations.HighBitsOfRawAreIgnored
  intro cfg raw raw' s rest hmasked
  have hfields : extractFields raw cfg = extractFields raw' cfg := by
    rw [← extractFields_and_patternMask, hmasked, extractFields_and_patternMask]
  refine ⟨(extractFields_and_patternMask cfg raw).symm, _, _, step_eq_showing _, step_eq_showing _, ?_⟩
  rw [showing_outputs, showing_outputs, present_cons, present_cons]
  exact portFunction_stimulus_congr cfg hfields

end Sys2Proof.Machine

/-! SUPPORT. FRACVAL by its domain, in both views (42_fractional_value.md R100 to R104). -/

namespace Sys2Proof.Machine

theorem fracvalDomain_iff {f fb : Nat} : fracvalDomain f fb = true ↔ (2 ≤ fb ∧ fb ≤ 23) ∧ f < 2 ^ fb := by
  simp [fracvalDomain, fractionWidthLegal]

theorem fracvalDomain_eq_false_iff {f fb : Nat} :
    fracvalDomain f fb = false ↔ fb < 2 ∨ 23 < fb ∨ 2 ^ fb ≤ f := by
  rw [← Bool.not_eq_true, fracvalDomain_iff]
  omega

theorem driveFractionalValue_eq (s : State) (v : BitVec 23) :
    s.driveFractionalValue v =
      { s with decoded := { s.decoded with
          mant := s.decoded.mant.extractLsb' 23 1 ++ (if s.config.cfgOk = 1#1 then v else 0#23) } } := by
  simp only [State.driveFractionalValue, configOk_iff]

/-! ### On the domain and outside it -/

section
variable {f fb : Nat}

theorem fracval_of_domain (h : fracvalDomain f fb = true) : fracval f fb = some ((f : ℚ) / 2 ^ fb) := by
  rw [fracval, if_pos h, fractionalValue_eq_div (fracvalDomain_iff.mp h).2]

theorem exec_fracval_of_domain (h : fracvalDomain f fb = true) (s : State) :
    exec (.fracval f fb) s = .next (s.driveFractionalValue (alignedFraction f fb)) := if_pos h

theorem fracval_of_not_domain (h : fracvalDomain f fb = false) : fracval f fb = none :=
  if_neg (Bool.eq_false_iff.mp h)

theorem exec_fracval_of_not_domain (h : fracvalDomain f fb = false) (s : State) :
    exec (.fracval f fb) s = .refused .fractionOutsideDomain := if_neg (Bool.eq_false_iff.mp h)

end

/-- The largest fraction lies one spacing below 1. -/
theorem pow_sub_one_div_pow (fb : Nat) : ((2 ^ fb - 1 : Nat) : ℚ) / 2 ^ fb = 1 - (2 : ℚ) ^ (-(fb : ℤ)) := by
  rw [Nat.cast_sub Nat.one_le_two_pow, Nat.cast_pow, Nat.cast_ofNat, Nat.cast_one, sub_div,
    div_self (by positivity), zpow_neg, zpow_natCast, one_div]

/-- Consecutive fractions lie one spacing apart. -/
theorem succ_div_pow (f fb : Nat) : ((f + 1 : Nat) : ℚ) / 2 ^ fb = f / 2 ^ fb + (2 : ℚ) ^ (-(fb : ℤ)) := by
  rw [Nat.cast_add_one, add_div, zpow_neg, zpow_natCast, one_div]

/-- Settles O17: on the domain the sum of the weights is the quotient. -/
theorem fractionalValueIsAQuotient : Obligations.FractionalValueIsAQuotient := by
  unfold Obligations.FractionalValueIsAQuotient
  intro f fb hmin hmax hlt
  exact fracval_of_domain (fracvalDomain_iff.mpr ⟨⟨hmin, hmax⟩, hlt⟩)

/-- Settles O18: each clause is one about the quotients of two fractions by the same power of 2. -/
theorem fractionalValueRangeAndOrder : Obligations.FractionalValueRangeAndOrder := by
  unfold Obligations.FractionalValueRangeAndOrder
  intro fb hmin hmax
  have hval {f : Nat} (hlt : f < 2 ^ fb) : fracval f fb = some ((f : ℚ) / 2 ^ fb) :=
    fractionalValueIsAQuotient f fb hmin hmax hlt
  have hpow : (0 : ℚ) < 2 ^ fb := by positivity
  refine ⟨?_, ?_, fun a b hab hb => ?_, fun a ha => ?_⟩
  · rw [hval (Nat.two_pow_pos fb), Nat.cast_zero, zero_div]
  · rw [hval (Nat.sub_one_lt (Nat.two_pow_pos fb).ne'), pow_sub_one_div_pow]
  · refine ⟨_, _, hval (hab.trans hb), hval hb, by positivity, ?_, ?_⟩
    · exact div_lt_div_of_pos_right (Nat.cast_lt.mpr hab) hpow
    · exact (div_lt_one hpow).mpr (by exact_mod_cast hb)
  · exact ⟨_, hval (Nat.lt_of_succ_lt ha), by rw [hval ha, succ_div_pow]⟩

/-- Settles O19: the pattern shown is the aligned fraction, whose number over 2^23 is the quotient. -/
theorem fracvalShowsOnMant : Obligations.FracvalShowsOnMant := by
  unfold Obligations.FracvalShowsOnMant
  intro f fb s hmin hmax hlt
  have hdomain : fracvalDomain f fb = true := fracvalDomain_iff.mpr ⟨⟨hmin, hmax⟩, hlt⟩
  have haligned : (alignedFraction f fb).toNat = f * 2 ^ (23 - fb) := toNat_alignedFraction hmax hlt
  refine ⟨alignedFraction f fb, haligned, ?_, ?_⟩
  · rw [fracval_of_domain hdomain, haligned, mul_pow_sub_div f hmax]
  · rw [exec_fracval_of_domain hdomain, driveFractionalValue_eq]

/-- Settles O20: outside the domain the function has no result and the arm refuses. -/
theorem fracvalRefusesOutsideItsDomain : Obligations.FracvalRefusesOutsideItsDomain := by
  unfold Obligations.FracvalRefusesOutsideItsDomain
  intro f fb s houtside
  have hdomain : fracvalDomain f fb = false := fracvalDomain_eq_false_iff.mpr houtside
  exact ⟨fracval_of_not_domain hdomain, exec_fracval_of_not_domain hdomain s⟩

end Sys2Proof.Machine

/-! SUPPORT. CLASSIFY and RECONSTRUCT by the layout's ranges, in both views (43_classify_reconstruct.md R110, R116,
R123, R124, R128). -/

namespace Sys2Proof.Machine

section
variable {f : DecodedFields} {cfg : LayoutConfig}

theorem inRange_eq_false_iff :
    f.inRange cfg = false ↔ 2 ^ cfg.exponentBits ≤ f.exponent ∨ 2 ^ cfg.fractionBits ≤ f.fraction := by
  rw [← Bool.not_eq_true, inRange_iff]
  omega

theorem classify_of_inRange (h : f.inRange cfg = true) : classify f cfg = some (classOf f cfg) := if_pos h

theorem exec_classify_of_inRange (h : f.inRange cfg = true) (s : State) :
    exec (.classify f cfg) s = .next (s.driveClass (classOf f cfg)) := if_pos h

theorem reconstruct_of_inRange (h : f.inRange cfg = true) : reconstruct f cfg = some (decodedValue f cfg) := if_pos h

theorem exec_reconstruct_of_inRange (h : f.inRange cfg = true) (s : State) :
    exec (.reconstruct f cfg) s = .next (s.driveDecoded (decodedPorts f cfg)) := if_pos h

theorem reconstruct_eq_some_iff {v : DecodedValue} :
    reconstruct f cfg = some v ↔ f.inRange cfg = true ∧ decodedValue f cfg = v := by
  simp [reconstruct]

/-! ### The five cases of CLASSIFY's rule -/

theorem classOf_infinity (he : f.exponent = cfg.allOnes) (hf : f.fraction = 0) : classOf f cfg = .infinity :=
  (if_pos he).trans (if_pos hf)

theorem classOf_nan (he : f.exponent = cfg.allOnes) (hf : f.fraction ≠ 0) : classOf f cfg = .nan :=
  (if_pos he).trans (if_neg hf)

theorem classOf_zero (he : f.exponent = 0) (hf : f.fraction = 0) : classOf f cfg = .zero :=
  (if_neg (he ▸ (allOnes_ne_zero cfg).symm)).trans ((if_pos he).trans (if_pos hf))

theorem classOf_subnormal (he : f.exponent = 0) (hf : f.fraction ≠ 0) : classOf f cfg = .subnormal :=
  (if_neg (he ▸ (allOnes_ne_zero cfg).symm)).trans ((if_pos he).trans (if_neg hf))

theorem classOf_normal (hzero : f.exponent ≠ 0) (hones : f.exponent ≠ cfg.allOnes) : classOf f cfg = .normal :=
  (if_neg hones).trans (if_neg hzero)

/-- A class and its code in CLASS, as R110 and R123 list them. -/
theorem classCode_cases (c : Classification) :
    c = .zero ∧ classCode c = 1#3 ∨ c = .subnormal ∧ classCode c = 2#3 ∨ c = .normal ∧ classCode c = 3#3 ∨
      c = .infinity ∧ classCode c = 4#3 ∨ c = .nan ∧ classCode c = 5#3 := by
  cases c <;> decide

end

/-- Settles O21: each of the five cases fixes the class, and the arm drives CLASS alone with its code. -/
theorem classifyDrivesTheClass : Obligations.ClassifyDrivesTheClass := by
  unfold Obligations.ClassifyDrivesTheClass
  intro f cfg s hrange
  refine ⟨classOf f cfg, classCode (classOf f cfg), classify_of_inRange hrange, classOf_infinity, classOf_nan,
    classOf_zero, classOf_subnormal, classOf_normal, classCode_cases _, ?_⟩
  rw [exec_classify_of_inRange hrange, driveClass_eq]

/-- Settles O31: outside the ranges neither function has a result and both arms refuse. -/
theorem reconstructRefusesFieldsOutsideTheLayout : Obligations.ReconstructRefusesFieldsOutsideTheLayout := by
  unfold Obligations.ReconstructRefusesFieldsOutsideTheLayout
  intro f cfg s houtside
  have hrange : ¬ f.inRange cfg = true := Bool.eq_false_iff.mp (inRange_eq_false_iff.mpr houtside)
  exact ⟨if_neg hrange, if_neg hrange, if_neg hrange, if_neg hrange⟩

/-- Settles O29: each selection on the field ports is what the unit of that port drives. -/
theorem reconstructDrivesItsPorts : Obligations.ReconstructDrivesItsPorts := by
  unfold Obligations.ReconstructDrivesItsPorts
  intro f cfg s hrange
  simp only [portClass_eq_classCode cfg hrange, numValid_classCode, portEffExp_classCode, portMant_classCode,
    portValue_classCode]
  rw [exec_reconstruct_of_inRange hrange, driveDecoded_eq]
  rfl

/-- Settles O30: extracted fields are in range, and the row RAW selects is the row of their class. -/
theorem reconstructIsTheSelectedClassRow : Obligations.ReconstructIsTheSelectedClassRow := by
  unfold Obligations.ReconstructIsTheSelectedClassRow
  intro cfg raw s
  have hrange := extractFields_inRange raw cfg
  rw [exec_reconstruct_of_inRange hrange, decodeClass_eq_classRow, exec_classRow hrange]

end Sys2Proof.Machine

/-! SUPPORT. The DecodedValue of each class: effective exponent, mantissa, sign and numeric value
(43_classify_reconstruct.md R116 to R119, R121, R126). -/

namespace Sys2Proof.Machine

section
variable {f : DecodedFields} {cfg : LayoutConfig}

/-! ### The two optional fields -/

theorem effectiveExponent_eq_none_iff {c : Classification} {e : Nat} :
    effectiveExponent c e cfg = none ↔ c = .infinity ∨ c = .nan := by
  cases c <;> simp [effectiveExponent]

theorem mantissaOf_eq_none_iff {c : Classification} {fraction : Nat} :
    mantissaOf c fraction cfg = none ↔ c = .infinity ∨ c = .nan := by
  cases c <;> simp [mantissaOf]

theorem fields_of_zero (h : f.inRange cfg = true) (hc : classOf f cfg = .zero) : f.exponent = 0 ∧ f.fraction = 0 := by
  simpa [classExponents, classFractions] using (classOf_eq_iff cfg h .zero).mp hc

theorem fields_of_subnormal (h : f.inRange cfg = true) (hc : classOf f cfg = .subnormal) :
    f.exponent = 0 ∧ 0 < f.fraction := by
  obtain ⟨hexp, hfrac⟩ := (classOf_eq_iff cfg h .subnormal).mp hc
  exact ⟨Finset.mem_singleton.mp hexp, (Finset.mem_Ico.mp hfrac).1⟩

theorem exponent_of_normal (h : f.inRange cfg = true) (hc : classOf f cfg = .normal) :
    1 ≤ f.exponent ∧ f.exponent < cfg.allOnes :=
  Finset.mem_Ico.mp ((classOf_eq_iff cfg h .normal).mp hc).1

/-- The stored exponents 1 to 2^eb - 2 are those of 1 - bias to bias. -/
theorem effectiveExponent_bias_bounds (h : f.inRange cfg = true) {x : Int}
    (hx : effectiveExponent (classOf f cfg) f.exponent cfg = some x) :
    1 - (cfg.bias : Int) ≤ x ∧ x ≤ cfg.bias := by
  obtain ⟨hbias, -⟩ := bias_bounds cfg
  cases hc : classOf f cfg with
  | infinity | nan => rw [hc] at hx; cases hx
  | zero | subnormal => rw [hc] at hx; cases hx; omega
  | normal =>
    rw [hc] at hx
    cases hx
    obtain ⟨hpos, hlt⟩ := exponent_of_normal h hc
    have hones := allOnes_eq_bias cfg
    omega

/-- A mantissa is a whole number over 2^fb, of at most fb + 1 bits. -/
theorem mantissaOf_eq_div {c : Classification} {fraction : Nat} {m : ℚ} (hf : fraction < 2 ^ cfg.fractionBits)
    (hm : mantissaOf c fraction cfg = some m) :
    ∃ k : Nat, k < 2 ^ (cfg.fractionBits + 1) ∧ m = (k : ℚ) / 2 ^ cfg.fractionBits := by
  rw [Nat.pow_succ]
  cases c with
  | infinity | nan => cases hm
  | zero | subnormal => cases hm; exact ⟨fraction, by omega, rfl⟩
  | normal =>
    cases hm
    refine ⟨2 ^ cfg.fractionBits + fraction, by omega, ?_⟩
    push_cast
    rw [add_div, div_self (by positivity)]

theorem decodedValue_of_infinity (hc : classOf f cfg = .infinity) :
    decodedValue f cfg =
      { classification := .infinity, sign := f.sign, effectiveExponent := none, mantissaMultiplier := none
        numericValue := .infinite f.sign } := by
  rw [decodedValue, hc]

theorem decodedValue_of_nan (hc : classOf f cfg = .nan) :
    decodedValue f cfg =
      { classification := .nan, sign := f.sign, effectiveExponent := none, mantissaMultiplier := none
        numericValue := .nan } := by
  rw [decodedValue, hc]

/-- Where both optional fields are present, the class is one of the three finite ones. -/
theorem decodedValue_eq_finiteValue {c : Classification} {e : Int} {m : ℚ} (h : f.inRange cfg = true)
    (hc : classOf f cfg = c) (he : effectiveExponent c f.exponent cfg = some e)
    (hm : mantissaOf c f.fraction cfg = some m) : decodedValue f cfg = finiteValue c f.sign e m := by
  unfold decodedValue
  rw [fractionalValue_eq_div (inRange_iff.mp h).2, hc]
  cases c with
  | infinity | nan => cases he
  | zero | subnormal | normal => cases he; cases hm; rfl

/-! ### The sign and the numeric value -/

theorem decodedValue_sign : (decodedValue f cfg).sign = f.sign := by
  unfold decodedValue
  cases classOf f cfg <;> rfl

theorem numericValue_eq_nan_iff : (decodedValue f cfg).numericValue = .nan ↔ classOf f cfg = .nan :=
  ⟨classOf_eq_nan, fun hc => by rw [decodedValue_of_nan hc]⟩

theorem numericValue_of_zero (h : f.inRange cfg = true) (hc : classOf f cfg = .zero) :
    (decodedValue f cfg).numericValue = .finite f.sign 0 := by
  obtain ⟨hexp, hfrac⟩ := fields_of_zero h hc
  rw [numericValue_of_finite h (hexp ▸ (allOnes_ne_zero cfg).symm), hexp, hfrac, magnitudeUnits_zero, Nat.cast_zero,
    zero_mul]

end

/-- Settles O34: the class selects the exponent, and a Normal's stored exponent lies between 0 and all-ones. -/
theorem effectiveExponentByClass : Obligations.EffectiveExponentByClass := by
  unfold Obligations.EffectiveExponentByClass
  intro f cfg v hv
  obtain ⟨hrange, rfl⟩ := reconstruct_eq_some_iff.mp hv
  rw [decodedValue_classification, decodedValue_effectiveExponent]
  refine ⟨fun hc => ?_, fun hc => ?_, effectiveExponent_eq_none_iff.symm, fun e he => ?_⟩
  · rw [hc, effectiveExponent]
  · obtain hc | hc := hc <;> rw [hc, effectiveExponent]
  · obtain ⟨hlow, hhigh⟩ := effectiveExponent_bias_bounds hrange he
    exact ⟨hlow, hhigh, effectiveExponent_bounds cfg hrange he⟩

/-- Settles O35: each class's mantissa is a quotient by 2^fb, and FRACVAL's quotient lies below 1. -/
theorem mantissaByClass : Obligations.MantissaByClass := by
  unfold Obligations.MantissaByClass
  intro f cfg v hv
  obtain ⟨hrange, rfl⟩ := reconstruct_eq_some_iff.mp hv
  obtain ⟨-, hfrac⟩ := inRange_iff.mp hrange
  have hfracval := fractionalValueIsAQuotient _ _ cfg.two_le_fb cfg.fb_le hfrac
  have hlt : (f.fraction : ℚ) / 2 ^ cfg.fractionBits < 1 := (div_lt_one (by positivity)).mpr (by exact_mod_cast hfrac)
  rw [decodedValue_classification, decodedValue_mantissaMultiplier f cfg hrange]
  refine ⟨fun hc => ?_, fun hc => ?_, fun hc => ?_, mantissaOf_eq_none_iff.symm, fun m hm => ?_⟩
  · rw [hc, mantissaOf, (fields_of_zero hrange hc).2, Nat.cast_zero, zero_div]
  · have hpos : (0 : ℚ) < f.fraction := Nat.cast_pos.mpr (fields_of_subnormal hrange hc).2
    rw [hc]
    exact ⟨_, rfl, hfracval, by positivity, hlt⟩
  · rw [hc]
    exact ⟨_, hfracval, rfl, le_add_of_nonneg_right (by positivity), by linarith⟩
  · obtain ⟨k, -, rfl⟩ := mantissaOf_eq_div hfrac hm
    exact ⟨k, div_mul_cancel₀ _ (by positivity)⟩

/-- Settles O37: a finite magnitude is a whole number of units, and only NaN leaves out the sign. -/
theorem signIsPreserved : Obligations.SignIsPreserved := by
  unfold Obligations.SignIsPreserved
  intro f cfg v hv
  obtain ⟨hrange, rfl⟩ := reconstruct_eq_some_iff.mp hv
  rw [decodedValue_classification]
  refine ⟨decodedValue_sign, numericValue_eq_nan_iff, fun b m hb => ?_, fun b hb => ?_, numericValue_of_zero hrange⟩
  · obtain ⟨-, -, hnum⟩ | ⟨-, hnum⟩ | ⟨-, hnum⟩ := numericValue_cases hrange
    · rw [hnum] at hb; cases hb
    · rw [hnum] at hb; cases hb
    · rw [hnum] at hb; cases hb; exact ⟨rfl, by positivity⟩
  · obtain ⟨-, -, hnum⟩ | ⟨-, hnum⟩ | ⟨-, hnum⟩ := numericValue_cases hrange
    · rw [hnum] at hb; cases hb; rfl
    · rw [hnum] at hb; cases hb
    · rw [hnum] at hb; cases hb

/-- Settles O38: the stored exponent and fraction solve the equations of R114 and R115. -/
theorem reencodingRecoversTheFields : Obligations.ReencodingRecoversTheFields := by
  unfold Obligations.ReencodingRecoversTheFields
  intro f cfg v hv
  obtain ⟨hrange, rfl⟩ := reconstruct_eq_some_iff.mp hv
  have hcancel : (f.fraction : ℚ) = f.fraction / 2 ^ cfg.fractionBits * 2 ^ cfg.fractionBits :=
    (div_mul_cancel₀ _ (by positivity)).symm
  rw [decodedValue_classification, decodedValue_effectiveExponent, decodedValue_mantissaMultiplier f cfg hrange,
    decodedValue_sign]
  refine ⟨fun hc => ?_, fun hc => ?_⟩
  · rw [hc]
    exact ⟨_, _, rfl, rfl, (sub_add_cancel _ _).symm, by rwa [add_sub_cancel_left], rfl⟩
  · obtain hc | hc := hc
    · rw [hc]
      exact ⟨_, rfl, (fields_of_zero hrange hc).1, hcancel, rfl⟩
    · rw [hc]
      exact ⟨_, rfl, (fields_of_subnormal hrange hc).1, hcancel, rfl⟩

/-! ### Finite values as dyadic numbers -/

/-- A multiple of a power of two is one of every smaller power. -/
theorem mul_zpow_eq_of_le (k : Nat) {x y : ℤ} (h : y ≤ x) :
    ∃ k' : Nat, (k : ℚ) * (2 : ℚ) ^ x = (k' : ℚ) * (2 : ℚ) ^ y := by
  obtain ⟨n, rfl⟩ := Int.le.dest h
  refine ⟨k * 2 ^ n, ?_⟩
  rw [zpow_add₀ two_ne_zero, zpow_natCast]
  push_cast
  ring

/-- A number of n bits times a power of two lies below 2^n times that power. -/
theorem mul_zpow_lt {k n : Nat} (hk : k < 2 ^ n) (x : ℤ) :
    (k : ℚ) * (2 : ℚ) ^ x < (2 : ℚ) ^ ((n : ℤ) + x) := by
  rw [zpow_add₀ two_ne_zero, zpow_natCast]
  exact mul_lt_mul_of_pos_right (by exact_mod_cast hk) (by positivity)

/-- Settles O36: the value is k 2^(e - fb) with k of at most fb + 1 bits, where -126 ≤ e ≤ 127 and fb ≤ 23. -/
theorem finiteValuesAreExactDyadics : Obligations.FiniteValuesAreExactDyadics := by
  unfold Obligations.FiniteValuesAreExactDyadics
  intro f cfg v e m hv he hm
  obtain ⟨hrange, rfl⟩ := reconstruct_eq_some_iff.mp hv
  rw [decodedValue_effectiveExponent] at he
  rw [decodedValue_mantissaMultiplier f cfg hrange] at hm
  have hnum : (decodedValue f cfg).numericValue = .finite f.sign (m * (2 : ℚ) ^ e) := by
    rw [decodedValue_eq_finiteValue hrange rfl he hm, finiteValue]
  obtain ⟨hlow, hhigh⟩ := effectiveExponent_bounds cfg hrange he
  obtain ⟨k, hk, rfl⟩ := mantissaOf_eq_div (inRange_iff.mp hrange).2 hm
  have hfb := cfg.fb_le
  have hk24 : k < 2 ^ 24 := hk.trans_le (Nat.pow_le_pow_right (by decide) (by omega))
  refine ⟨hnum, ⟨k, hk24, fraction_mul_zpow k _ e⟩, ?_, ?_⟩
  · rw [fraction_mul_zpow]
    exact mul_zpow_eq_of_le k (by omega)
  · rw [fraction_mul_zpow]
    refine (mul_zpow_lt hk _).trans_le (zpow_le_zpow_right₀ one_le_two ?_)
    push_cast
    omega

end Sys2Proof.Machine

/-! SUPPORT. The five class rows in both views, VALUE as a number (43_classify_reconstruct.md R111 to R115, R123,
R124). -/

namespace Sys2Proof.Machine

section
variable {f : DecodedFields} (cfg : LayoutConfig) (sign : Bit)

/-! ### The function view of a row's fields -/

theorem allOnes_fields_inRange {fraction : Nat} (hf : fraction < 2 ^ cfg.fractionBits) :
    ({ sign := sign, exponent := 2 ^ cfg.exponentBits - 1, fraction := fraction } : DecodedFields).inRange cfg = true :=
  inRange_iff.mpr ⟨cfg.allOnes_lt, hf⟩

theorem zero_exponent_fields_inRange {fraction : Nat} (hf : fraction < 2 ^ cfg.fractionBits) :
    ({ sign := sign, exponent := 0, fraction := fraction } : DecodedFields).inRange cfg = true :=
  inRange_iff.mpr ⟨Nat.two_pow_pos _, hf⟩

variable {cfg} in
theorem reconstruct_eq_finiteValue {c : Classification} {e : Int} {m : ℚ} (h : f.inRange cfg = true)
    (hc : classOf f cfg = c) (he : effectiveExponent c f.exponent cfg = some e)
    (hm : mantissaOf c f.fraction cfg = some m) : reconstruct f cfg = some (finiteValue c f.sign e m) := by
  rw [reconstruct_of_inRange h, decodedValue_eq_finiteValue h hc he hm]

/-! ### VALUE -/

theorem toNat_packValue (e : Byte) (m : BitVec 23) :
    (packValue sign e m).toNat = sign.toNat * 2 ^ 31 + e.toNat * 2 ^ 23 + m.toNat := by
  rw [packValue_eq_assemble, toNat_assemble valueLayout sign e.isLt m.isLt]
  show (sign.toNat * 2 ^ 8 + e.toNat) * 2 ^ 23 + m.toNat = _
  ring

/-- VALUE of a Subnormal kept one: its fraction is the mantissa, whose bit 23 is 0. -/
theorem toNat_subnormalValue_kept {mant : BitVec 24} (h8 : cfg.exponentBits = 8) (hlt : mant.toNat < 2 ^ 23)
    (e : Int) : (subnormalValue sign e mant cfg).toNat = sign.toNat * 2 ^ 31 + mant.toNat := by
  rw [subnormalValue, if_pos h8, toNat_packValue, BitVec.toNat_setWidth, Nat.mod_eq_of_lt hlt]
  simp

variable {cfg} in
/-- MANT of a Subnormal: the fraction aligned at 2^(23 - fb), below the implicit bit. -/
theorem toNat_mantPattern_subnormal_bounds {fraction : Nat} (hpos : 0 < fraction)
    (hlt : fraction < 2 ^ cfg.fractionBits) :
    2 ^ (23 - cfg.fractionBits) ≤ (mantPattern .subnormal fraction cfg).toNat ∧
      (mantPattern .subnormal fraction cfg).toNat < 2 ^ 23 := by
  rw [toNat_mantPattern_subnormal (f := ⟨0#1, 0, fraction⟩) hlt]
  exact ⟨Nat.le_mul_of_pos_left _ hpos, mul_pow_sub_lt cfg.fb_le hlt⟩

theorem bias_le_of_narrow (hnarrow : cfg.exponentBits < 8) : cfg.bias ≤ 63 := by
  have hpred : cfg.exponentBits - 1 ≤ 6 := by omega
  exact Nat.sub_le_sub_right (Nat.pow_le_pow_right (by decide) hpred) 1

/-- VALUE of a Subnormal made a Normal: its highest set bit p becomes the implicit one. -/
theorem toNat_subnormalValue_normalised {mant : BitVec 24} (hnarrow : cfg.exponentBits < 8) (hpos : mant.toNat ≠ 0)
    (hlt : mant.toNat < 2 ^ 23) :
    ((subnormalValue sign (1 - (cfg.bias : Int)) mant cfg).toNat : Int) =
      sign.toNat * 2 ^ 31 + (1 - (cfg.bias : Int) - (23 - (msb mant.toNat : Int)) + 127) * 2 ^ 23 +
        ((mant.toNat : Int) * 2 ^ (23 - msb mant.toNat) - 2 ^ 23) := by
  obtain ⟨hmsb, hsignificand⟩ := normalised_significand hpos hlt
  have hbias := bias_le_of_narrow cfg hnarrow
  rw [subnormalValue, if_neg hnarrow.ne, toNat_packValue]
  generalize msb mant.toNat = p at hmsb hsignificand ⊢
  have hrebiased : (BitVec.ofInt 8 (1 - (cfg.bias : Int) - (23 - (p : Int)) + 127)).toNat = 105 - cfg.bias + p :=
    toNat_ofInt_byte (by omega) (by omega)
  have hfraction : ((BitVec.ofNat 23 (mant.toNat <<< (23 - p))).toNat : Int) = mant.toNat * 2 ^ (23 - p) - 2 ^ 23 := by
    rw [eq_sub_iff_add_eq, add_comm]
    exact_mod_cast hsignificand
  rw [hrebiased, ← hfraction]
  push_cast
  omega

end

/-- Settles O24: all-ones exponent and fraction 0 are Infinity, and the row's VALUE is one of two patterns. -/
theorem infinityRow : Obligations.InfinityRow := by
  unfold Obligations.InfinityRow
  intro cfg sign s
  have hvalue : sign ++ 0xFF#8 ++ 0#23 = if sign = 0#1 then 0x7F800000#32 else 0xFF800000#32 := by
    revert sign; decide
  refine ⟨?_, ?_⟩
  · rw [reconstruct_of_inRange (allOnes_fields_inRange cfg sign (Nat.two_pow_pos _)),
      decodedValue_of_infinity (classOf_infinity rfl rfl)]
  · rw [← hvalue]
    exact congrArg Host.Outcome.next (driveDecoded_eq s _)

/-- Settles O25: all-ones exponent and a nonzero fraction are NaN, and the row's VALUE is a constant. -/
theorem nanRow : Obligations.NanRow := by
  unfold Obligations.NanRow
  intro cfg sign fraction s hpos hlt
  refine ⟨?_, ?_⟩
  · rw [reconstruct_of_inRange (allOnes_fields_inRange cfg sign hlt), decodedValue_of_nan (classOf_nan rfl hpos.ne')]
  · exact (if_pos ⟨hpos, hlt⟩).trans (congrArg Host.Outcome.next (driveDecoded_eq s _))

/-- Settles O26: the mantissa 0 gives the value 0, and VALUE holds the sign alone. -/
theorem zeroRow : Obligations.ZeroRow := by
  unfold Obligations.ZeroRow
  intro cfg sign s
  have hvalue : sign ++ 0#31 = if sign = 0#1 then 0x00000000#32 else 0x80000000#32 := by
    revert sign; decide
  refine ⟨?_, ?_⟩
  · have hview := reconstruct_eq_finiteValue (zero_exponent_fields_inRange cfg sign (Nat.two_pow_pos _))
      (classOf_zero rfl rfl) rfl rfl
    rw [hview]
    simp [finiteValue]
  · rw [← hvalue]
    exact congrArg Host.Outcome.next (driveDecoded_eq s _)

/-- Settles O27: MANT is the aligned fraction, and p is its highest set bit. -/
theorem subnormalRow : Obligations.SubnormalRow := by
  unfold Obligations.SubnormalRow
  intro cfg sign fraction s hpos hlt
  refine ⟨?_, ?_⟩
  · rw [reconstruct_eq_finiteValue (zero_exponent_fields_inRange cfg sign hlt)
      (classOf_subnormal rfl hpos.ne') rfl rfl, finiteValue, fraction_mul_zpow]
  · have hmant : (mantPattern .subnormal fraction cfg).toNat = fraction * 2 ^ (23 - cfg.fractionBits) :=
      toNat_mantPattern_subnormal (f := ⟨sign, 0, fraction⟩) hlt
    obtain ⟨haligned, hmantlt⟩ := toNat_mantPattern_subnormal_bounds hpos hlt
    have hmantpos := ((Nat.two_pow_pos _).trans_le haligned).ne'
    refine ⟨mantPattern .subnormal fraction cfg, subnormalValue sign (1 - (cfg.bias : Int)) _ cfg, hmant,
      fun h8 => toNat_subnormalValue_kept cfg sign h8 hmantlt _, fun hnarrow => ?_, ?_⟩
    · exact ⟨msb (mantPattern .subnormal fraction cfg).toNat, (Nat.le_log2 hmantpos).mpr haligned,
        (normalised_significand hmantpos hmantlt).1, Nat.log2_self_le hmantpos, Nat.lt_log2_self,
        toNat_subnormalValue_normalised cfg sign hnarrow hmantpos hmantlt⟩
    · exact (if_pos ⟨hpos, hlt⟩).trans (congrArg Host.Outcome.next (driveDecoded_eq s _))

/-- Settles O28: MANT is the implicit bit and the aligned fraction, and the rebiased exponent fits 8 bits. -/
theorem normalRow : Obligations.NormalRow := by
  unfold Obligations.NormalRow
  intro cfg sign exponent fraction s hpos hle hlt
  have hexp : exponent < cfg.allOnes := by unfold LayoutConfig.allOnes; omega
  refine ⟨?_, ?_⟩
  · have hrange : ({ sign := sign, exponent := exponent, fraction := fraction } : DecodedFields).inRange cfg = true :=
      inRange_iff.mpr ⟨hexp.trans cfg.allOnes_lt, hlt⟩
    rw [reconstruct_eq_finiteValue hrange (classOf_normal (Nat.one_le_iff_ne_zero.mp hpos) hexp.ne) rfl rfl,
      finiteValue]
  · have haligned : (alignedFraction fraction cfg.fractionBits).toNat = fraction * 2 ^ (23 - cfg.fractionBits) :=
      toNat_alignedFraction cfg.fb_le hlt
    obtain ⟨-, hbias⟩ := bias_bounds cfg
    have hones := allOnes_eq_bias cfg
    have hrebiased : (BitVec.ofInt 8 ((exponent : Int) - (cfg.bias : Int) + 127)).toNat = exponent + 127 - cfg.bias :=
      toNat_ofInt_byte (by omega) (by omega)
    refine ⟨mantPattern .normal fraction cfg, packValue sign _ (alignedFraction fraction cfg.fractionBits), ?_, ?_,
      (if_pos ⟨⟨hpos, hle⟩, hlt⟩).trans (congrArg Host.Outcome.next (driveDecoded_eq s _))⟩
    · rw [mantPattern, toNat_bit_append, haligned]
      rfl
    · rw [toNat_packValue, hrebiased, haligned]
      push_cast
      omega

end Sys2Proof.Machine

/-! SUPPORT. The finite patterns of a layout in order, its extreme values, and VALUE under (23, 8)
(43_classify_reconstruct.md R124, R125, R127). -/

namespace Sys2Proof.Machine

section
variable (cfg : LayoutConfig) (sign : Bit)

/-! ### The number of assembled fields -/

theorem numberOf_assemble {exponent fraction : Nat} (hexp : exponent < 2 ^ cfg.exponentBits)
    (hfrac : fraction < 2 ^ cfg.fractionBits) :
    numberOf (cfg.assemble sign exponent fraction) cfg =
      (decodedValue { sign := sign, exponent := exponent, fraction := fraction } cfg).numericValue := by
  rw [numberOf, extractFields_assemble cfg sign hexp hfrac]

theorem numberOf_assemble_zero_exponent {fraction : Nat} (hfrac : fraction < 2 ^ cfg.fractionBits) :
    numberOf (cfg.assemble sign 0 fraction) cfg =
      .finite sign ((fraction : ℚ) / 2 ^ cfg.fractionBits * (2 : ℚ) ^ (1 - (cfg.bias : ℤ))) := by
  rw [numberOf_assemble cfg sign (Nat.two_pow_pos _) hfrac,
    numericValue_of_finite (zero_exponent_fields_inRange cfg sign hfrac) (allOnes_ne_zero cfg).symm,
    magnitudeUnits_zero, fraction_mul_zpow]

theorem numberOf_assemble_between {exponent fraction : Nat} (hpos : 1 ≤ exponent) (hlt : exponent < cfg.allOnes)
    (hfrac : fraction < 2 ^ cfg.fractionBits) :
    numberOf (cfg.assemble sign exponent fraction) cfg =
      .finite sign
        ((1 + (fraction : ℚ) / 2 ^ cfg.fractionBits) * (2 : ℚ) ^ ((exponent : ℤ) - (cfg.bias : ℤ))) := by
  have hexp := hlt.trans cfg.allOnes_lt
  have hrange : ({ sign := sign, exponent := exponent, fraction := fraction } : DecodedFields).inRange cfg = true :=
    inRange_iff.mpr ⟨hexp, hfrac⟩
  rw [numberOf_assemble cfg sign hexp hfrac,
    decodedValue_eq_finiteValue hrange (classOf_normal (Nat.one_le_iff_ne_zero.mp hpos) hlt.ne) rfl rfl, finiteValue]

theorem numberOf_assemble_infinity : numberOf (cfg.assemble sign cfg.allOnes 0) cfg = .infinite sign := by
  rw [numberOf_assemble cfg sign cfg.allOnes_lt (Nat.two_pow_pos _),
    decodedValue_of_infinity (classOf_infinity rfl rfl)]

/-- The pattern after the last fraction of an exponent is the first one of the next exponent. -/
theorem toNat_assemble_next_exponent {exponent : Nat} (h : exponent + 1 < 2 ^ cfg.exponentBits) :
    (cfg.assemble sign (exponent + 1) 0).toNat =
      (cfg.assemble sign exponent (2 ^ cfg.fractionBits - 1)).toNat + 1 := by
  have hpow := Nat.two_pow_pos cfg.fractionBits
  rw [toNat_assemble cfg sign h hpow,
    toNat_assemble cfg sign (Nat.lt_of_succ_lt h) (Nat.sub_one_lt hpow.ne'), Nat.add_assoc, Nat.sub_add_cancel hpow,
    ← Nat.add_assoc, Nat.succ_mul, Nat.add_zero]

end

/-- Settles O39: the extreme fields have the fractions 0, 1 and 2^fb - 1, the last one spacing below 1. -/
theorem extremeValuesOfALayout : Obligations.ExtremeValuesOfALayout := by
  unfold Obligations.ExtremeValuesOfALayout
  intro cfg
  have hpow : 1 < 2 ^ cfg.fractionBits := Nat.one_lt_two_pow (by have := cfg.two_le_fb; omega)
  have hlast : 2 ^ cfg.fractionBits - 1 < 2 ^ cfg.fractionBits := Nat.sub_one_lt (by omega)
  have hones := cfg.seven_le_allOnes
  have hlargest : cfg.allOnes - 1 + 1 = cfg.allOnes := by omega
  have htop : ((cfg.allOnes - 1 : Nat) : ℤ) - (cfg.bias : ℤ) = cfg.bias := by
    have := allOnes_eq_bias cfg
    omega
  have htiny : (2 : ℚ) ^ (1 - (cfg.bias : ℤ) - (cfg.fractionBits : ℤ)) =
      (2 : ℚ) ^ (-(cfg.fractionBits : ℤ)) * (2 : ℚ) ^ (1 - (cfg.bias : ℤ)) := by
    rw [← zpow_add₀ two_ne_zero, neg_add_eq_sub]
  refine ⟨?_, ?_, ?_, ?_, numberOf_assemble_infinity cfg 0#1, ?_, ?_, ?_⟩
  · rw [numberOf_assemble_zero_exponent cfg 0#1 hpow, fraction_mul_zpow, Nat.cast_one, one_mul]
  · rw [numberOf_assemble_zero_exponent cfg 0#1 hlast, pow_sub_one_div_pow]
  · rw [numberOf_assemble_between cfg 0#1 le_rfl (by omega) (Nat.two_pow_pos _), Nat.cast_zero, zero_div, add_zero,
      one_mul, Nat.cast_one]
  · rw [numberOf_assemble_between cfg 0#1 (by omega) (by omega) hlast, pow_sub_one_div_pow, htop, ← add_sub_assoc,
      one_add_one_eq_two]
  · rw [htiny, ← add_mul, sub_add_cancel, one_mul]
  · exact toNat_assemble_next_exponent cfg 0#1 (by have := cfg.allOnes_lt; omega)
  · have hnext := toNat_assemble_next_exponent cfg 0#1 (hlargest.trans_lt cfg.allOnes_lt)
    rwa [hlargest] at hnext

/-! ### The order of the finite patterns -/

/-- A pattern below +infinity has sign 0, and its value is its number of units. -/
theorem numberOf_of_lt_infinity {cfg : LayoutConfig} {a : Word}
    (h : a.toNat < cfg.allOnes * 2 ^ cfg.fractionBits) :
    numberOf a cfg =
      .finite 0#1 (magnitudeUnits cfg.fractionBits (a.toNat / 2 ^ cfg.fractionBits) (a.toNat % 2 ^ cfg.fractionBits) *
        (2 : ℚ) ^ (1 - (cfg.bias : ℤ) - (cfg.fractionBits : ℤ))) := by
  have hdiv : a.toNat / 2 ^ cfg.fractionBits < cfg.allOnes := Nat.div_lt_of_lt_mul (Nat.mul_comm _ _ ▸ h)
  have hexpLt := hdiv.trans cfg.allOnes_lt
  have hexp : (extractFields a cfg).exponent = a.toNat / 2 ^ cfg.fractionBits := by
    rw [extractFields_exponent, Nat.mod_eq_of_lt hexpLt]
  have hsign : (extractFields a cfg).sign = 0#1 := by
    apply BitVec.eq_of_toNat_eq
    rw [extractFields_sign_toNat, Nat.div_eq_of_lt hexpLt]
    rfl
  rw [numberOf, numericValue_of_finite (extractFields_inRange a cfg) (hexp ▸ hdiv.ne), hexp, extractFields_fraction,
    hsign]

/-- Settles O40: the number of units grows strictly with the pattern (`magnitudeUnits_strictMono`). -/
theorem finiteValuesIncreaseWithThePattern : Obligations.FiniteValuesIncreaseWithThePattern := by
  unfold Obligations.FiniteValuesIncreaseWithThePattern
  intro cfg a b hab hb
  refine ⟨_, _, numberOf_of_lt_infinity (hab.trans hb), numberOf_of_lt_infinity hb, ?_⟩
  exact mul_lt_mul_of_pos_right (Nat.cast_lt.mpr (magnitudeUnits_strictMono cfg.fractionBits hab)) (by positivity)

/-! ### VALUE under (23, 8) -/

theorem classOf_eq_nan_iff {f : DecodedFields} {cfg : LayoutConfig} :
    classOf f cfg = .nan ↔ f.exponent = cfg.allOnes ∧ f.fraction ≠ 0 := by
  by_cases hones : f.exponent = cfg.allOnes
  · by_cases hfrac : f.fraction = 0 <;> simp [classOf, hones, hfrac]
  · rw [classOf, if_neg hones]
    split_ifs <;> simp [hones]

theorem classOf_valueLayout_eq_nan_iff (raw : Word) :
    classOf (extractFields raw valueLayout) valueLayout = .nan ↔
      raw.extractLsb' 23 8 = 0xFF#8 ∧ raw.extractLsb' 0 23 ≠ 0#23 := by
  have hexp : (extractFields raw valueLayout).exponent = (raw.extractLsb' 23 8).toNat := by
    rw [extractFields_exponent, BitVec.extractLsb'_toNat, Nat.shiftRight_eq_div_pow]
    rfl
  have hfrac : (extractFields raw valueLayout).fraction = (raw.extractLsb' 0 23).toNat := by
    rw [extractFields_fraction, BitVec.extractLsb'_toNat, Nat.shiftRight_zero]
    rfl
  rw [classOf_eq_nan_iff, hexp, hfrac, ne_eq, ne_eq, ← BitVec.toNat_inj, ← BitVec.toNat_inj]
  rfl

/-- Under (23, 8) VALUE and RAW have one number, so but for NaN they are one pattern. -/
theorem value_valueLayout (raw : Word) :
    (decodedPorts (extractFields raw valueLayout) valueLayout).value =
      if classOf (extractFields raw valueLayout) valueLayout = .nan then 0x7FC00000#32 else raw := by
  have hrange := extractFields_inRange raw valueLayout
  split_ifs with hc
  · simp only [decodedPorts, hc, valuePattern]
    decide
  · have hnumber := numberOf_value hrange
    refine eq_of_extractFields_valueLayout (fields_eq_of_numericValue_eq (extractFields_inRange _ valueLayout) hrange
      (fun hnan => hc (numericValue_eq_nan_iff.mp ?_)) hnumber)
    exact hnumber.symm.trans hnan

/-- Settles O43: a step under (23, 8) drives the VALUE of RAW's own fields. -/
theorem singlePrecisionIsTheIdentity : Obligations.SinglePrecisionIsTheIdentity := by
  unfold Obligations.SinglePrecisionIsTheIdentity
  intro raw s rest
  refine ⟨_, step_eq_showing _, ?_⟩
  rw [present_cons]
  show (portFunction (valueLayout.stimulus raw)).decoded.value = _
  rw [portFunction_of_layout (ofWidths_stimulus valueLayout raw)]
  simp only [← classOf_valueLayout_eq_nan_iff]
  exact value_valueLayout raw

end Sys2Proof.Machine

/-! SUPPORT. DECODE in both views, beside VALIDATE, the output function and one step (44_decode_pipeline.md R135 to
R144). -/

namespace Sys2Proof.Machine

section
variable {fb eb : Int}

/-! ### A failed VALIDATE -/

theorem error_of_validate_eq_error {e : ConfigError} (h : validate fb eb = .error e) :
    errFrac fb = true ∨ errExp eb = true := by
  cases e with
  | fractionOutOfRange => exact .inl (validate_eq_fractionOutOfRange_iff.mp h)
  | exponentOutOfRange => exact .inr (validate_eq_exponentOutOfRange_iff.mp h).2

theorem exec_validate_of_error {e : ConfigError} (h : validate fb eb = .error e) (s : State) :
    exec (.validate fb eb) s = .next (s.deliverError (errFrac fb) (errExp eb)) := by
  simp only [exec, execValidate, h]

theorem deliverError_eq {frac exp : Bool} (h : frac = true ∨ exp = true) (s : State) :
    s.deliverError frac exp =
      { s with
        config := { cfgOk := 0#1, err := errCode frac exp, totalBits := 0#6, bias := 0#7 }
        fields := FieldPorts.none
        decoded := DecodedPorts.none } := by
  rw [State.deliverError, (cfgOkBit_eq_zero frac exp).mpr h]

/-! ### DECODE by VALIDATE's result -/

/-- Nothing follows a failed VALIDATE (44_decode_pipeline.md R136). -/
theorem exec_decode_of_error {e : ConfigError} (h : validate fb eb = .error e) (raw : Word) (s : State) :
    exec (.decode fb eb raw) s = exec (.validate fb eb) s := by
  simp only [exec, execDecode, execValidate, h]

theorem exec_decode_of_ok {cfg : LayoutConfig} (h : validate fb eb = .ok cfg) (raw : Word) (s : State) :
    exec (.decode fb eb raw) s =
      .next (((s.driveLayout cfg).driveFields (extractFields raw cfg)).driveDecoded
        (decodedPorts (extractFields raw cfg) cfg)) := by
  simp only [exec, execDecode, h]

end

theorem validate_of_no_layout {fb eb : Nat} (h : LayoutConfig.ofWidths fb eb = none) :
    ∃ e, validate fb eb = .error e := by
  obtain ⟨-, hv⟩ | ⟨-, -, hv⟩ | ⟨-, -, cfg, -, hfb, heb⟩ := validate_cases fb eb
  · exact ⟨_, hv⟩
  · exact ⟨_, hv⟩
  · have hlayout : LayoutConfig.ofWidths fb eb = some cfg :=
      LayoutConfig.ofWidths_eq_some.mpr ⟨Nat.cast_inj.mp hfb, Nat.cast_inj.mp heb⟩
    rw [h] at hlayout
    cases hlayout

/-- Settles O7: DECODE stops where VALIDATE does, and a delivered error forces the zeros. -/
theorem failedValidationForcesZeros : Obligations.FailedValidationForcesZeros := by
  unfold Obligations.FailedValidationForcesZeros
  intro fb eb raw s e h
  have herr := error_of_validate_eq_error h
  refine ⟨errCode (errFrac fb) (errExp eb), ?_, ?_, exec_decode_of_error h raw s⟩
  · rw [ne_eq, errCode_eq_zero]
    rintro ⟨hf, he⟩
    simp [hf, he] at herr
  · rw [exec_validate_of_error h, deliverError_eq herr]
    rfl

/-! ### DECODE, the output function and the step -/

/-- DECODE drives the output function of its triple and changes nothing else. -/
theorem exec_decode_eq_showing (st : Stimulus) (s : State) :
    exec (.decode st.fb.toNat st.eb.toNat st.raw) s = .next (s.showing (portFunction st)) := by
  cases hw : LayoutConfig.ofWidths st.fb.toNat st.eb.toNat with
  | some cfg =>
    rw [exec_decode_of_ok (validate_of_layout hw), portFunction_of_layout hw]
    rfl
  | none =>
    obtain ⟨e, hv⟩ := validate_of_no_layout hw
    have herr : (!fractionWidthLegal st.fb.toNat) = true ∨ (!exponentWidthLegal st.eb.toNat) = true := by
      simpa using LayoutConfig.ofWidths_eq_none.mp hw
    rw [exec_decode_of_error hv, exec_validate_of_no_layout hw, deliverError_eq herr, portFunction_of_no_layout hw]
    rfl

/-- Settles O44: `exec_decode_eq_showing`, with `State.showing` written out. -/
theorem decodeDrivesTheCompleteOutputFunction : Obligations.DecodeDrivesTheCompleteOutputFunction := by
  unfold Obligations.DecodeDrivesTheCompleteOutputFunction
  exact exec_decode_eq_showing

/-- Settles O48: the step by the table rows and DECODE by the units drive the same output function. -/
theorem stepIsOneDecode : Obligations.StepIsOneDecode := by
  unfold Obligations.StepIsOneDecode
  intro s
  rw [step_eq_showing, exec_decode_eq_showing]

/-- Settles O49: the rows a triple selects are well-formed, and well-formed rows answer (`evaluate_answers`). -/
theorem everyStepAnswers : Obligations.EveryStepAnswers := by
  unfold Obligations.EveryStepAnswers
  exact fun s => evaluate_answers s.present

/-! ### DECODE in the function view -/

/-- Settles O45: the extracted fields lie within the layout's ranges, so RECONSTRUCT has a result for them. -/
theorem decodeComposesTheThreeFunctions : Obligations.DecodeComposesTheThreeFunctions := by
  unfold Obligations.DecodeComposesTheThreeFunctions
  intro fb eb raw
  constructor
  · intro e h
    simp only [decodeTriple, h]
  · intro cfg h
    refine ⟨_, reconstruct_of_inRange (extractFields_inRange raw cfg), ?_⟩
    simp only [decodeTriple, h]

end Sys2Proof.Machine

/-! SUPPORT. Every operation on the ports keeps the outputs qualified by CFG_OK (44_decode_pipeline.md R138). -/

namespace Sys2Proof.Machine

/-! ### VALIDATE's operations qualify the outputs -/

theorem driveLayout_qualified (s : State) (cfg : LayoutConfig) : (s.driveLayout cfg).qualified := by
  simp [State.qualified]

theorem deliverError_qualified (s : State) (frac exp : Bool) : (s.deliverError frac exp).qualified := by
  refine ⟨?_, fun _ => ⟨rfl, rfl, rfl, rfl⟩⟩
  rw [deliverError_config, cfgOkBit_eq_one, errCode_eq_zero]

/-! ### The other operations keep them qualified -/

section
variable {s : State}

/-- An operation that leaves VALIDATE's ports alone has to keep the zeros of CFG_OK = 0 in the two other groups. -/
theorem State.qualified.of_config_eq {t : State} (h : s.qualified) (hconfig : t.config = s.config)
    (hfields : s.config.cfgOk = 0#1 → s.fields = FieldPorts.none → t.fields = FieldPorts.none)
    (hdecoded : s.config.cfgOk = 0#1 → s.decoded = DecodedPorts.none → t.decoded = DecodedPorts.none) :
    t.qualified := by
  obtain ⟨hstatus, hzeros⟩ := h
  unfold State.qualified
  rw [hconfig]
  refine ⟨hstatus, fun hok => ?_⟩
  obtain ⟨htotal, hbias, hf, hd⟩ := hzeros hok
  exact ⟨htotal, hbias, hfields hok hf, hdecoded hok hd⟩

theorem State.qualified.driveFields (h : s.qualified) (f : DecodedFields) : (s.driveFields f).qualified :=
  h.of_config_eq rfl (fun hok _ => by simp [driveFields_eq, hok]) fun _ hd => hd

theorem State.qualified.driveClass (h : s.qualified) (c : Classification) : (s.driveClass c).qualified :=
  h.of_config_eq rfl (fun _ hf => hf) fun hok hd => driveClass_none s c hok hd

theorem State.qualified.driveFractionalValue (h : s.qualified) (v : BitVec 23) :
    (s.driveFractionalValue v).qualified := by
  refine h.of_config_eq rfl (fun _ hf => hf) fun hok hd => ?_
  simp [driveFractionalValue_eq, hok, hd, DecodedPorts.none]

theorem State.qualified.driveDecoded (h : s.qualified) (p : DecodedPorts) : (s.driveDecoded p).qualified :=
  h.of_config_eq rfl (fun _ hf => hf) fun hok _ => by simp [driveDecoded_eq, hok]

/-! ### Every instruction -/

theorem execValidate_qualified {fb eb : Int} {t : State} (h : execValidate fb eb s = .next t) : t.qualified := by
  obtain ⟨cfg, rfl⟩ | ⟨frac, exp, -, rfl⟩ := execValidate_eq_next h
  · exact driveLayout_qualified s cfg
  · exact deliverError_qualified s frac exp

theorem exec_decode_qualified {fb eb : Int} {raw : Word} {t : State}
    (h : exec (.decode fb eb raw) s = .next t) : t.qualified := by
  cases hv : validate fb eb with
  | error e => exact execValidate_qualified ((exec_decode_of_error hv raw s).symm.trans h)
  | ok cfg =>
    rw [exec_decode_of_ok hv] at h
    cases h
    exact ((driveLayout_qualified s cfg).driveFields _).driveDecoded _

theorem exec_qualified {i : Instr} {t : State} (hs : s.qualified) (h : exec i s = .next t) : t.qualified := by
  cases i with
  | validate fb eb => exact execValidate_qualified h
  | decode fb eb raw => exact exec_decode_qualified h
  | extract raw cfg => cases h; exact hs.driveFields _
  | fracval f fb => cases eq_of_ite_next_eq_next h; exact hs.driveFractionalValue _
  | classify f cfg => cases eq_of_ite_next_eq_next h; exact hs.driveClass _
  | infinity | zero => cases h; exact hs.driveDecoded _
  | reconstruct | nan | subnormal | normal => cases eq_of_ite_next_eq_next h; exact hs.driveDecoded _
  | cfgLegal cfg => cases h; exact driveLayout_qualified s cfg
  | cfgFractionIllegal | cfgExponentIllegal | cfgBothIllegal =>
    cases eq_of_ite_next_eq_next h
    exact deliverError_qualified s _ _

end

/-- Settles O54: each instruction that answers is one of the operations above (`exec_qualified`). -/
theorem everyInstructionKeepsTheQualification : Obligations.EveryInstructionKeepsTheQualification := by
  unfold Obligations.EveryInstructionKeepsTheQualification
  exact fun _ _ _ hs h => exec_qualified hs h

end Sys2Proof.Machine

/-! SUPPORT. Errors and who detects them: the caller's bound on RAW, and the instructions that write VALIDATE's and
EXTRACT's ports (60_exceptions.md R145, R149, R151). -/

namespace Sys2Proof.Machine

/-! ### The caller's bound -/

section
variable {raw : Word} {cfg : LayoutConfig}

theorem not_tooManyBits_iff : ¬ tooManyBits raw cfg ↔ raw.toNat < 2 ^ cfg.totalBits := Nat.not_le

theorem shiftRight_totalBits_eq_zero_iff : raw >>> cfg.totalBits = 0#32 ↔ raw.toNat < 2 ^ cfg.totalBits := by
  rw [← BitVec.toNat_inj, BitVec.toNat_ushiftRight, Nat.shiftRight_eq_div_pow]
  exact Nat.div_eq_zero_iff_lt (Nat.two_pow_pos _)

theorem toNat_and_patternMask_lt : (raw &&& cfg.patternMask).toNat < 2 ^ cfg.totalBits := by
  rw [BitVec.toNat_and, toNat_patternMask, Nat.and_two_pow_sub_one_eq_mod]
  exact Nat.mod_lt _ (Nat.two_pow_pos _)

theorem and_patternMask_eq_self_iff : raw &&& cfg.patternMask = raw ↔ raw.toNat < 2 ^ cfg.totalBits :=
  ⟨fun h => h ▸ toNat_and_patternMask_lt, and_patternMask_of_lt cfg⟩

end

/-- Settles O16: RAW below 2^total_bits is what a zero shift, an unchanged masked pattern and a failing bound each say,
and every RAW is below 2^32. -/
theorem callerBoundIsTheExcessBits : Obligations.CallerBoundIsTheExcessBits := by
  unfold Obligations.CallerBoundIsTheExcessBits
  intro raw cfg
  refine ⟨?_, fun h32 => ?_, not_tooManyBits_iff.trans and_patternMask_eq_self_iff.symm⟩
  · rw [← not_iff_not, not_ne_iff]
    exact not_tooManyBits_iff.trans shiftRight_totalBits_eq_zero_iff.symm
  · rw [not_tooManyBits_iff, h32]
    exact raw.isLt

/-! ### VALIDATE's and EXTRACT's ports -/

/-- What may write CFG_OK, ERR, TOTAL_BITS and BIAS: VALIDATE, DECODE, which contains it, and the configuration
rows. -/
def MayWriteConfigPorts (i : Instr) : Prop :=
  (∃ fb eb, i = .validate fb eb) ∨ (∃ fb eb raw, i = .decode fb eb raw) ∨ (∃ cfg, i = .cfgLegal cfg) ∨
    (∃ fb eb, i = .cfgFractionIllegal fb eb) ∨ (∃ fb eb, i = .cfgExponentIllegal fb eb) ∨
    ∃ fb eb, i = .cfgBothIllegal fb eb

/-- What may write the field ports of `t`: EXTRACT, DECODE, which contains it, and the zeros of CFG_OK = 0. -/
def MayWriteFieldPorts (i : Instr) (t : State) : Prop :=
  (∃ raw cfg, i = .extract raw cfg) ∨ (∃ fb eb raw, i = .decode fb eb raw) ∨
    t.config.cfgOk = 0#1 ∧ t.fields = FieldPorts.none

theorem mayWriteFieldPorts_deliverError (i : Instr) (s : State) {frac exp : Bool} (h : frac = true ∨ exp = true) :
    MayWriteFieldPorts i (s.deliverError frac exp) :=
  .inr (.inr ⟨(cfgOkBit_eq_zero frac exp).mpr h, rfl⟩)

/-- Every other instruction drives a group that is not VALIDATE's. -/
theorem exec_config_cases {i : Instr} {s t : State} (h : exec i s = .next t) :
    t.config = s.config ∨ MayWriteConfigPorts i := by
  cases i with
  | validate | decode | cfgLegal | cfgFractionIllegal | cfgExponentIllegal | cfgBothIllegal =>
    exact .inr (by simp [MayWriteConfigPorts])
  | extract | infinity | zero => cases h; exact .inl rfl
  | fracval | classify | reconstruct | nan | subnormal | normal =>
    cases eq_of_ite_next_eq_next h
    exact .inl rfl

/-- Every other instruction drives a group that is not EXTRACT's, or delivers an error. -/
theorem exec_fields_cases {i : Instr} {s t : State} (h : exec i s = .next t) :
    t.fields = s.fields ∨ MayWriteFieldPorts i t := by
  cases i with
  | validate fb eb =>
    obtain ⟨cfg, rfl⟩ | ⟨frac, exp, herr, rfl⟩ := execValidate_eq_next h
    · exact .inl rfl
    · exact .inr (mayWriteFieldPorts_deliverError _ s herr)
  | extract raw cfg => exact .inr (.inl ⟨raw, cfg, rfl⟩)
  | decode fb eb raw => exact .inr (.inr (.inl ⟨fb, eb, raw, rfl⟩))
  | infinity | zero | cfgLegal => cases h; exact .inl rfl
  | fracval | classify | reconstruct | nan | subnormal | normal =>
    cases eq_of_ite_next_eq_next h
    exact .inl rfl
  | cfgFractionIllegal | cfgExponentIllegal | cfgBothIllegal =>
    cases eq_of_ite_next_eq_next h
    exact .inr (mayWriteFieldPorts_deliverError _ s (by decide))

/-- Settles O56: what an instruction that answers does to VALIDATE's ports, and what it does to EXTRACT's. -/
theorem onlyValidationWritesTheConfigurationPorts : Obligations.OnlyValidationWritesTheConfigurationPorts := by
  unfold Obligations.OnlyValidationWritesTheConfigurationPorts
  exact fun _ _ _ h => ⟨exec_config_cases h, exec_fields_cases h⟩

end Sys2Proof.Machine

/-! SUPPORT. The widths FB = EB = 0 that an integrator may hold during its own reset (70_reset_and_hazards.md R166). -/

namespace Sys2Proof.Machine

/-- The output function at FB = EB = 0: both widths are out of range, so both bits of ERR are set, and RAW is not
read. -/
theorem portFunction_zero_widths (raw : Word) :
    portFunction { fb := 0#8, eb := 0#8, raw := raw } =
      { config := { cfgOk := 0#1, err := 3#2, totalBits := 0#6, bias := 0#7 }
        fields := FieldPorts.none, decoded := DecodedPorts.none } := by
  have hillegal : LayoutConfig.ofWidths (0#8).toNat (0#8).toNat = none :=
    LayoutConfig.ofWidths_eq_none.mpr (.inl (by decide))
  have hboth : errCode (!fractionWidthLegal (0#8).toNat) (!exponentWidthLegal (0#8).toNat) = 3#2 := by decide
  rw [portFunction_of_no_layout hillegal, hboth]

/-- Settles O2: the step presents the zero widths and drives the output function of them, which is
`portFunction_zero_widths`. -/
theorem zeroWidthsShowBothErrorsAndZeros : Obligations.ZeroWidthsShowBothErrorsAndZeros := by
  unfold Obligations.ZeroWidthsShowBothErrorsAndZeros
  intro s raw rest
  rw [step_eq_showing, present_cons, portFunction_zero_widths]
  rfl

end Sys2Proof.Machine

/-! SUPPORT. The machine at reset, which holds the widths FB = EB = 0 (70_reset_and_hazards.md R166). -/

namespace Sys2Proof.Machine

/-- The widths held at reset are the zero widths, whose outputs `portFunction_zero_widths` gives. -/
theorem reset_outputs : State.reset.outputs = portFunction State.reset.input := (portFunction_zero_widths 0#32).symm

/-- Delivering both errors at reset changes nothing, and delivering errors qualifies the outputs. -/
theorem reset_qualified : State.reset.qualified := by
  have hboth : State.reset.deliverError true true = State.reset := rfl
  exact hboth ▸ deliverError_qualified State.reset true true

theorem reset_outputs_codesLegal : State.reset.outputs.codesLegal := by
  rw [reset_outputs]
  exact portFunction_codesLegal State.reset.input

/-- Settles O1: reset shows the output function of the triple it holds (`reset_outputs`), which has no code that is
never produced; the three groups are those `State.reset` is defined with. -/
theorem resetIsTheEvaluationOfTheZeroTriple : Obligations.ResetIsTheEvaluationOfTheZeroTriple := by
  unfold Obligations.ResetIsTheEvaluationOfTheZeroTriple
  exact ⟨reset_outputs, reset_qualified, reset_outputs_codesLegal, rfl, rfl, rfl⟩

end Sys2Proof.Machine
